-- ==== Sys2Proof/Word.lean ====
section
/-! DEFINITION. The words of the block: bytes, the 8-byte token and the frame
(00_scope.md R8; 30_encoding.md R70). -/

namespace Sys2Proof

/-- A byte, unsigned, 0..255 (R8). -/
abbrev Byte := BitVec 8

/-- Eight bytes in order: the identity token, and the payload FRAME[1..8] of a frame, whose byte
FRAME[k+1] is `tk` (R54, R70). -/
structure Token where
  t0 : Byte
  t1 : Byte
  t2 : Byte
  t3 : Byte
  t4 : Byte
  t5 : Byte
  t6 : Byte
  t7 : Byte
  deriving DecidableEq, Repr, Inhabited

/-- One frame in the format F9: FRAME[0] is `op`, FRAME[1..8] the payload (R70). `more` is the payload from
FRAME[9] on, of which there is none under the source's FRAME_LEN = 9 (log 14). -/
structure Frame where
  op : Byte
  payload : Token
  more : List Byte
  deriving DecidableEq, Repr, Inhabited

end Sys2Proof
end

