-- ==== Sys2Proof/Config.lean ====
section
/-! DEFINITION. The parameters of 00_scope.md R6, the names of channels and of environment events, and
the free values: constants with no body, for what the spec leaves as any value
(93_implementation_defined.md). -/

namespace Sys2Proof

/-- The five output channels, c = 0..4 in this order (R24). -/
inductive Channel where
  | cpu | mem | la1 | la5 | la15
  deriving DecidableEq, Repr

/-- The three load average channels, overflow bits i = 0..2 in this order (R24, R25). -/
inductive LoadChannel where
  | la1 | la5 | la15
  deriving DecidableEq, Repr

/-- CHAN_RAW, one level per channel, an unsigned RAW_W-bit number held as a Nat below 2^RAW_W (R23, R24, log 9).
`more` holds the channels from index 5 on, of which there is none under the source's N_CHAN = 5 (log 14). -/
structure Channels where
  cpu : Nat
  mem : Nat
  la1 : Nat
  la5 : Nat
  la15 : Nat
  more : List Nat
  deriving DecidableEq, Repr, Inhabited

/-- OVF, one bit per load average channel; true is 1, HIGH (R11, R25). `more` holds the bits from index 3 on, of
which there is none under the source's N_OVF = 3 (log 14). -/
structure Overflows where
  la1 : Bool
  la5 : Bool
  la15 : Bool
  more : List Bool
  deriving DecidableEq, Repr, Inhabited

/-- The values on the nine output lines: five DRIVE_W-bit drives, three overflow lines, the active
line (R106, R219); with more channels than five or bits than three, one line for each of those too (log 14). -/
structure Lines where
  cpu : Nat
  mem : Nat
  la1 : Nat
  la5 : Nat
  la15 : Nat
  ovfLa1 : Bool
  ovfLa5 : Bool
  ovfLa15 : Bool
  active : Bool
  more : List Nat
  ovfMore : List Bool
  deriving DecidableEq, Repr, Inhabited

/-- What the environment can do, between cycles only (R10, R198, R213). -/
inductive Event where
  /-- the host pushes a byte into the receive stream (R190) -/
  | rxPush (b : Byte)
  /-- one time unit passes (R217) -/
  | tick
  /-- the transport is reset (R196) -/
  | rxFlush
  /-- power-on or external reset (R240) -/
  | reset
  /-- power is lost, or reset comes, while the block writes token byte `k` of the SETID at the head of
  the queue; with no such SETID it is a reset (R125, R213, R240) -/
  | tornWrite (k : Fin 8)
  deriving DecidableEq, Repr

namespace Config

/-- The parameters that the source writes as literals and R6 names, so that a model can vary them. A field named
`...Extra` or `...Less1` holds what exceeds the least value the rules have a meaning for: 8 payload bytes, which SETID
stores (R73); 5 channels and 3 overflow bits, which the index map names (R24); a divisor above 0 (R101). So no illegal
value can be written (log 14). FRAME_LEN is PAYLOAD_LEN + 1 (R70). -/
structure Literals where
  /-- PAYLOAD_LEN less 8 -/
  payloadExtra : Nat
  /-- N_CHAN less 5 -/
  chanExtra : Nat
  /-- N_OVF less 3 -/
  ovfExtra : Nat
  /-- PCT_IN_MAX less 1 -/
  pctInMaxLess1 : Nat
  /-- OUT_MAX -/
  outMax : Nat
  /-- LA_MAX -/
  laMax : Nat
  /-- RAW_W -/
  rawW : Nat
  deriving DecidableEq, Repr

/-- The values R6 gives: FRAME_LEN 9, PAYLOAD_LEN 8, N_CHAN 5, N_OVF 3, PCT_IN_MAX 100, OUT_MAX 255, LA_MAX 100,
RAW_W 10. -/
def sourceLiterals : Literals where
  payloadExtra := 0
  chanExtra := 0
  ovfExtra := 0
  pctInMaxLess1 := 99
  outMax := 255
  laMax := 100
  rawW := 10

/-- MAP_ROUND, the rounding rule of the rescale (R101). -/
inductive RoundMode where
  | halfUp | floor | halfEven
  deriving DecidableEq, Repr

/-- RX_OVERFLOW, the fate of a byte that arrives at a full queue (R190). -/
inductive RxOverflow where
  | dropNew | anyDrop
  deriving DecidableEq, Repr

/-- ID_RENDER, how opcode 1 renders the token (R121). -/
inductive IdRender where
  | cstring | raw8
  deriving DecidableEq, Repr

/-- The parameters of R6, as plain data. Where the spec bounds a parameter below (RXQ_CAP by FRAME_LEN, NVM_SIZE
by 8), the field holds what exceeds the bound, so that no illegal value can be written (log 1). -/
structure Params where
  /-- FRAME_LEN, PAYLOAD_LEN, N_CHAN, N_OVF, PCT_IN_MAX, OUT_MAX, LA_MAX, RAW_W -/
  literals : Literals
  /-- MAP_ROUND -/
  mapRound : RoundMode
  /-- DRIVE_W -/
  driveW : Nat
  /-- THRESH -/
  thresh : Nat
  /-- TIME_W -/
  timeW : Nat
  /-- RXQ_CAP less FRAME_LEN -/
  rxqSpare : Nat
  /-- RX_OVERFLOW -/
  rxOverflow : RxOverflow
  /-- DEVICE_NAME -/
  deviceName : List Byte
  /-- LINE_END -/
  lineEnd : List Byte
  /-- ID_RENDER -/
  idRender : IdRender
  /-- NVM_INIT at addresses 0..7 -/
  nvmToken : Token
  /-- NVM_INIT at addresses 8..NVM_SIZE-1 -/
  nvmRest : List Byte
  /-- ACTIVE_INIT -/
  activeInit : Bool
  /-- BOOT_TICKS -/
  bootTicks : Nat
  deriving DecidableEq, Repr

/-! Free values. Nothing constrains them; `n` is State.draws, the number of the draw. -/

/-- FRAME after a block reset: unspecified (R22, R241). -/
opaque freeFrame : Nat → Frame

/-- CHAN_RAW during BOOT: any value (R23, R241, R242). -/
opaque freeChannels : Nat → Channels

/-- OVF during BOOT: any value (R25, R241, R242). -/
opaque freeOvf : Nat → Overflows

/-- ACTIVE during BOOT: any value (R26, R241, R242). -/
opaque freeActive : Nat → Bool

/-- What the nine lines present during BOOT: any value (R219, R242). The second argument is TIME. -/
opaque freeLines : Nat → Nat → Lines

/-- The storage byte whose write a power loss interrupts: any value (R125). -/
opaque freeByte : Nat → Byte

/-- Which byte a full queue loses under RX_OVERFLOW = ANY_DROP: any one (R190). -/
opaque freeIndex : Nat → Nat

/-- The environment's events before the next cycle: any finite number, in any order (R198). -/
opaque freeEvents : Nat → List Event

/-! The OPEN parameters of the launch that State.reset stands for (R6, log 2). -/

/-- RXQ_CAP less FRAME_LEN: OPEN. -/
opaque openRxqSpare : Nat

/-- DEVICE_NAME: OPEN. -/
opaque openDeviceName : List Byte

/-- NVM_INIT(0..7): OPEN. -/
opaque openNvmToken : Token

/-- NVM_INIT(8..NVM_SIZE-1): OPEN. -/
opaque openNvmRest : List Byte

/-- BOOT_TICKS: OPEN. -/
opaque openBootTicks : Nat

/-- The launch that State.reset stands for: the defaults of R6, and a constant with no body for each
OPEN parameter (log 2). -/
def launch : Params where
  literals := sourceLiterals
  mapRound := .halfUp
  driveW := 8
  thresh := 5000
  timeW := 32
  rxqSpare := openRxqSpare
  rxOverflow := .dropNew
  deviceName := openDeviceName
  lineEnd := [0x0D#8, 0x0A#8]
  idRender := .cstring
  nvmToken := openNvmToken
  nvmRest := openNvmRest
  activeInit := true
  bootTicks := openBootTicks

end Config

end Sys2Proof
end

