-- ==== Sys2Proof/Syntax.lean ====
section
/-! DEFINITION. The commands of the block: one constructor per row of spec/opcode_table.json
(30_encoding.md R75), with the operands the row uses (R73) and nothing of the ignored payload (R74). -/

namespace Sys2Proof

/-- A command. A payload byte that the command ignores is no part of it (R74, log 16). -/
inductive Instr where
  /-- opcode 0x00: emit the device identity string (R142) -/
  | getname
  /-- opcode 0x01: read and emit the identity token (R143) -/
  | getid
  /-- opcode 0x02: write the payload as the identity token (R144) -/
  | setid (t : Token)
  /-- opcode 0x0A: set the CPU percent channel (R145) -/
  | cpu (v : Byte)
  /-- opcode 0x0B: set the memory percent channel (R146) -/
  | mem (v : Byte)
  /-- opcode 0x0C: set the load average 1 channel (R147) -/
  | la1 (v : Byte)
  /-- opcode 0x0D: set the load average 5 channel (R148) -/
  | la5 (v : Byte)
  /-- opcode 0x0E: set the load average 15 channel (R149) -/
  | la15 (v : Byte)
  /-- every unassigned opcode 3..9, 15..255, which the command keeps (R76, R79, R150) -/
  | nop (op : Byte)
  deriving DecidableEq, Repr

end Sys2Proof
end

