-- ==== Sys2Proof/WellFormed.lean ====
section
/-! DEFINITION. Which commands a frame can hold: all but a NOP that carries an assigned opcode
(30_encoding.md R75, R76, R79). -/

namespace Sys2Proof

/-- The opcode is unassigned: 3..9 or 15..255 (R76). -/
def unassigned (op : Byte) : Bool :=
  (3 ≤ op.toNat && op.toNat ≤ 9) || 15 ≤ op.toNat

/-- The command is one that some frame decodes to (R75, R79). -/
def Instr.wf : Instr → Bool
  | .getname => true
  | .getid => true
  | .setid _ => true
  | .cpu _ => true
  | .mem _ => true
  | .la1 _ => true
  | .la5 _ => true
  | .la15 _ => true
  | .nop op => unassigned op

end Sys2Proof
end

