-- ==== Sys2Proof/Decode.lean ====
section
/-! DEFINITION. Frames as bytes, decoding (30_encoding.md R70 to R77), and the encoder (R79). -/

namespace Sys2Proof

/-- The eight bytes of a token in order, t0 first (R54). -/
def Token.bytes (t : Token) : List Byte :=
  [t.t0, t.t1, t.t2, t.t3, t.t4, t.t5, t.t6, t.t7]

/-- PAYLOAD_LEN, payload bytes per frame (R6). -/
def payloadLen (L : Config.Literals) : Nat := L.payloadExtra + 8

/-- FRAME_LEN, bytes per frame: the opcode and the payload (R6, R70). -/
def frameLen (L : Config.Literals) : Nat := payloadLen L + 1

/-- The bytes of a frame in arrival order, the opcode first (R54, R70). -/
def Frame.bytes (f : Frame) : List Byte :=
  f.op :: (f.payload.bytes ++ f.more)

/-- The value operand v = FRAME[1], raw (R73). -/
def Frame.value (f : Frame) : Byte := f.payload.t0

/-- The token operand [FRAME[1], ..., FRAME[8]], raw (R73). -/
def Frame.token (f : Frame) : Token := f.payload

/-- Cut one frame off the head of a byte sequence, if FRAME_LEN bytes are there (R72, R191). -/
def takeFrame (L : Config.Literals) : List Byte → Option (Frame × List Byte)
  | b0 :: b1 :: b2 :: b3 :: b4 :: b5 :: b6 :: b7 :: b8 :: rest =>
    if L.payloadExtra ≤ rest.length then
      some (⟨b0, ⟨b1, b2, b3, b4, b5, b6, b7, b8⟩, rest.take L.payloadExtra⟩, rest.drop L.payloadExtra)
    else none
  | _ => none

/-- The opcode map of R75: FRAME[0] alone selects the command. Every frame decodes (R77). -/
def decodeFrame (f : Frame) : Instr :=
  if f.op = 0x00#8 then .getname
  else if f.op = 0x01#8 then .getid
  else if f.op = 0x02#8 then .setid f.token
  else if f.op = 0x0A#8 then .cpu f.value
  else if f.op = 0x0B#8 then .mem f.value
  else if f.op = 0x0C#8 then .la1 f.value
  else if f.op = 0x0D#8 then .la5 f.value
  else if f.op = 0x0E#8 then .la15 f.value
  else .nop f.op

/-- Why bytes hold no command. -/
inductive DecodeError where
  /-- Fewer than FRAME_LEN bytes: a partial frame is never dispatched (R70, R191). The field says how many there are. -/
  | partialFrame (have_ : Nat)
  deriving DecidableEq, Repr

/-- Decode the command at the head of a byte sequence, with the bytes after its frame (R72, R75). -/
def decode (L : Config.Literals) (bs : List Byte) : Except DecodeError (Instr × List Byte) :=
  match takeFrame L bs with
  | some (f, rest) => .ok (decodeFrame f, rest)
  | none => .error (.partialFrame bs.length)

/-- The payload the assembler writes for the value operand: v, then zeros (R79). -/
def valuePayload (v : Byte) : Token := ⟨v, 0, 0, 0, 0, 0, 0, 0⟩

/-- The frame with an opcode and the bytes FRAME[1..8], any further payload byte 0x00 (R79). -/
def frameOf (L : Config.Literals) (op : Byte) (payload : Token) : Frame :=
  ⟨op, payload, List.replicate L.payloadExtra 0⟩

/-- The frame a command assembles to, every ignored payload byte 0x00 (R79). -/
def encodeFrame (L : Config.Literals) : Instr → Frame
  | .getname => frameOf L 0x00#8 (valuePayload 0)
  | .getid => frameOf L 0x01#8 (valuePayload 0)
  | .setid t => frameOf L 0x02#8 t
  | .cpu v => frameOf L 0x0A#8 (valuePayload v)
  | .mem v => frameOf L 0x0B#8 (valuePayload v)
  | .la1 v => frameOf L 0x0C#8 (valuePayload v)
  | .la5 v => frameOf L 0x0D#8 (valuePayload v)
  | .la15 v => frameOf L 0x0E#8 (valuePayload v)
  | .nop op => frameOf L op (valuePayload 0)

/-- The bytes a command assembles to (R79). -/
def encode (L : Config.Literals) (i : Instr) : List Byte := (encodeFrame L i).bytes

/-- Byte k of a number whose bit 0 is the least significant bit of its first byte. -/
def byteOf (w k : Nat) : Byte := BitVec.ofNat 8 (w / 2 ^ (8 * k))

/-- The nine bytes of a frame given as a number in the numbering of spec/opcode_table.json, the bits
above `nbits` zero: FRAME[k] is bits 8k+7..8k. -/
def tableWordBytes (nbits w : Nat) : List Byte :=
  let n := w % 2 ^ nbits
  [byteOf n 0, byteOf n 1, byteOf n 2, byteOf n 3, byteOf n 4, byteOf n 5, byteOf n 6, byteOf n 7,
    byteOf n 8]

/-- The command the decoder reads from a frame given as a number in the table's numbering, whose rows are frames of
9 bytes (R71). -/
def decodeTableWord (nbits w : Nat) : Option Instr :=
  match decode Config.sourceLiterals (tableWordBytes nbits w) with
  | .ok (i, _) => some i
  | .error _ => none

end Sys2Proof
end

