-- ==== Sys2Proof/Machine/State.lean ====
section
/-! DEFINITION. The state of the block (10_state.md R20), the reasons a step can stop, and the state
right after power-on (70_reset_and_hazards.md R241). -/

namespace Sys2Proof.Machine

/-- PHASE (R33). -/
inductive Phase where
  | boot | run
  deriving DecidableEq, Repr

/-- One entry of the schedule, and one move of the machine (R10, R198, log 3). -/
inductive Turn where
  /-- the block takes a cycle (R193) -/
  | cycle
  /-- the block enters its main loop, if that is due (R243, log 10) -/
  | enter
  /-- the environment does something (R213) -/
  | event (e : Event)
  deriving DecidableEq, Repr

/-- Why a step stops with a fault. -/
inductive Fault where
  /-- Raised by memRead and memWrite for a storage address at or above NVM_SIZE, which does not exist
  (R51). No command and no step raises it, since the block reaches addresses 0..7 alone (R50). Safe. -/
  | noSuchStorage (a : Nat)
  deriving DecidableEq, Repr

/-- Why a step is refused. -/
inductive Refusal where
  /-- Raised by exec's arm of an instruction that has no meaning yet. No arm raises it: every row of the
  opcode table has its meaning. Safe. -/
  | notModelled (mnemonic : String)
  deriving DecidableEq, Repr

/-- The state of the block and of what surrounds it, as plain data. -/
structure State where
  /-- the parameters of R6, constant while the block runs (R7) -/
  cfg : Config.Params
  /-- PHASE (R33) -/
  phase : Phase
  /-- RXQ, oldest byte first (R29) -/
  rxq : List Byte
  /-- FRAME[0..FRAME_LEN-1] (R22) -/
  frame : Frame
  /-- CHAN_RAW[0..N_CHAN-1], each below 2^RAW_W (R23, log 9) -/
  chanRaw : Channels
  /-- OVF[0..N_OVF-1] (R25) -/
  ovf : Overflows
  /-- ACTIVE (R26) -/
  active : Bool
  /-- LAST_LIVE, below 2^TIME_W (R27, log 9) -/
  lastLive : Nat
  /-- TIME, below 2^TIME_W (R28, log 9) -/
  time : Nat
  /-- DISPATCHED (R32) -/
  dispatched : Bool
  /-- HANDLED (R32) -/
  handled : Bool
  /-- LIVE (R32) -/
  live : Bool
  /-- NVM: the bytes that differ from NVM_INIT, addresses strictly rising (R30, R53, log 8) -/
  nvm : List Host.Cell
  /-- TX, oldest byte first (R31) -/
  tx : List Byte
  /-- the model's own: ticks since reset while in BOOT, which R243 compares with BOOT_TICKS (log 7) -/
  bootElapsed : Nat
  /-- the model's own: who moves next (log 3) -/
  turns : List Turn
  /-- the model's own: how many free values have been drawn (log 7) -/
  draws : Nat
  deriving DecidableEq, Repr

/-- The state right after the first power-on (R241). The environment's events before the block's first move are a free
value, as they are before every later one (R198, R213, log 3). CHAN_RAW, OVF, ACTIVE and FRAME have no reset value
in the spec; they are zero here (log 5, log 6: DESIGN CHOICE, unsafe). -/
def State.reset : State where
  cfg := Config.launch
  phase := .boot
  rxq := []
  frame := ⟨0, ⟨0, 0, 0, 0, 0, 0, 0, 0⟩, []⟩
  chanRaw := ⟨0, 0, 0, 0, 0, []⟩
  ovf := ⟨false, false, false, []⟩
  active := false
  lastLive := 0
  time := 0
  dispatched := false
  handled := false
  live := false
  nvm := []
  tx := []
  bootElapsed := 0
  turns := (Config.freeEvents 0).map Turn.event
  draws := 1

end Sys2Proof.Machine
end

