-- ==== Sys2Proof/Machine/Ops.lean ====
section
/-! DEFINITION. The named operations over storage, the response stream and the channel registers. Taking
an exception and returning from one have no operation here: the block raises none, saves nothing and has
no handler (60_exceptions.md R210, R214, R215). -/

namespace Sys2Proof.Machine

/-- Go on with the result of a step that answered one, stop where it stopped. -/
def andThen {α β : Type} (x : Host.Outcome α Fault Refusal) (f : α → Host.Outcome β Fault Refusal) :
    Host.Outcome β Fault Refusal :=
  match x with
  | .next a => f a
  | .fault r => .fault r
  | .refused r => .refused r

/-! Parameters derived from the launch data. -/

/-- RXQ_CAP, at least FRAME_LEN, the 9 of R6 and R29 (R6, R29; decision D9). -/
def rxqCap (cfg : Config.Params) : Nat := cfg.rxqSpare + frameLen cfg.literals

/-- N_CHAN, logical output channels (R6). -/
def nChan (L : Config.Literals) : Nat := L.chanExtra + 5

/-- N_OVF, overflow lines (R6). -/
def nOvf (L : Config.Literals) : Nat := L.ovfExtra + 3

/-- PCT_IN_MAX, top of the nominal percent domain (R6). -/
def pctInMax (L : Config.Literals) : Nat := L.pctInMaxLess1 + 1

/-- NVM_SIZE, at least 8 (R6, R51). -/
def nvmSize (cfg : Config.Params) : Nat := cfg.nvmRest.length + 8

/-- NVM_INIT(a): what the storage byte at address `a` reads as before any write (R30, R53). This is
what an address the storage list does not name reads as (log 8). -/
def nvmInit (cfg : Config.Params) (a : Nat) : Byte :=
  (cfg.nvmToken.bytes ++ cfg.nvmRest).getD a 0

/-! The storage list: addresses strictly rising, no entry equal to what an unlisted address reads as. -/

namespace Memory

/-- Every address of the list is above `lo`, and the addresses rise strictly. -/
def risesAbove : Nat → List Host.Cell → Bool
  | _, [] => true
  | lo, (a, _) :: rest => decide (lo < a) && risesAbove a rest

/-- The addresses rise strictly. -/
def rises : List Host.Cell → Bool
  | [] => true
  | (a, _) :: rest => risesAbove a rest

/-- The canonical form of a storage list: addresses strictly rising, each below NVM_SIZE, and no entry
equal to what an unlisted address reads as (log 8). -/
def wf (cfg : Config.Params) (m : List Host.Cell) : Bool :=
  rises m && m.all fun c => decide (c.1 < nvmSize cfg) && decide (c.2 ≠ nvmInit cfg c.1)

/-- The byte the list holds for an address. -/
def lookup : List Host.Cell → Nat → Option Byte
  | [], _ => none
  | (a, v) :: rest, b => if a = b then some v else lookup rest b

/-- The byte at an address: the one listed, else NVM_INIT of the address (R53, R60). -/
def read (cfg : Config.Params) (m : List Host.Cell) (a : Nat) : Byte :=
  (lookup m a).getD (nvmInit cfg a)

/-- Take an address out of a list. -/
def erase (m : List Host.Cell) (b : Nat) : List Host.Cell :=
  m.filter fun c => c.1 != b

/-- Put a byte into a list at its address's place. -/
def insert : List Host.Cell → Nat → Byte → List Host.Cell
  | [], b, w => [(b, w)]
  | (a, v) :: rest, b, w =>
    if b < a then (b, w) :: (a, v) :: rest
    else if a = b then (b, w) :: rest
    else (a, v) :: insert rest b w

/-- Set the byte at an address, keeping the canonical form (R56). -/
def write (cfg : Config.Params) (m : List Host.Cell) (a : Nat) (v : Byte) : List Host.Cell :=
  if v = nvmInit cfg a then erase m a else insert m a v

end Memory

/-- MemRead(a, 1): the storage byte at address `a` (R56). -/
def memRead (s : State) (a : Nat) : Host.Outcome Byte Fault Refusal :=
  if a < nvmSize s.cfg then .next (Memory.read s.cfg s.nvm a) else .fault (.noSuchStorage a)

/-- MemWrite(a, 1, v): set the storage byte at address `a` (R56). -/
def memWrite (s : State) (a : Nat) (v : Byte) : Host.Outcome State Fault Refusal :=
  if a < nvmSize s.cfg then .next { s with nvm := Memory.write s.cfg s.nvm a v }
  else .fault (.noSuchStorage a)

/-- Read `n` storage bytes from address `a` on, in address order (R56, R120). -/
def loadFrom (s : State) : Nat → Nat → Host.Outcome (List Byte) Fault Refusal
  | _, 0 => .next []
  | a, n + 1 => andThen (memRead s a) fun b => andThen (loadFrom s (a + 1) n) fun bs => .next (b :: bs)

/-- Write bytes to storage from address `a` on, in address order (R56, R122). -/
def storeFrom : Nat → List Byte → State → Host.Outcome State Fault Refusal
  | _, [], s => .next s
  | a, b :: bs, s => andThen (memWrite s a b) (storeFrom (a + 1) bs)

/-- Emit(bs): append to the response stream (R9, R62). -/
def emit (bs : List Byte) (s : State) : State := { s with tx := s.tx ++ bs }

/-! The channel registers, each reached by its name in the index map of R24. -/

/-- CHAN_RAW of a channel (R23, R24). -/
def Channels.level (r : Channels) : Channel → Nat
  | .cpu => r.cpu
  | .mem => r.mem
  | .la1 => r.la1
  | .la5 => r.la5
  | .la15 => r.la15

/-- The levels of all channels, in the order of their indexes (R23, R24). -/
def Channels.levels (r : Channels) : List Nat := [r.cpu, r.mem, r.la1, r.la5, r.la15] ++ r.more

/-- CHAN_RAW with one channel set (R23, R24). -/
def Channels.withLevel (r : Channels) (c : Channel) (l : Nat) : Channels :=
  match c with
  | .cpu => { r with cpu := l }
  | .mem => { r with mem := l }
  | .la1 => { r with la1 := l }
  | .la5 => { r with la5 := l }
  | .la15 => { r with la15 := l }

/-- The output channel of a load average channel: OVF[i] belongs to channel i + 2 (R24, R25). -/
def LoadChannel.channel : LoadChannel → Channel
  | .la1 => .la1
  | .la5 => .la5
  | .la15 => .la15

/-- OVF of a load average channel (R25). -/
def Overflows.bit (o : Overflows) : LoadChannel → Bool
  | .la1 => o.la1
  | .la5 => o.la5
  | .la15 => o.la15

/-- All overflow bits, in the order of their indexes (R25). -/
def Overflows.bits (o : Overflows) : List Bool := [o.la1, o.la5, o.la15] ++ o.more

/-- OVF with one bit set or cleared (R25). -/
def Overflows.withBit (o : Overflows) (c : LoadChannel) (b : Bool) : Overflows :=
  match c with
  | .la1 => { o with la1 := b }
  | .la5 => { o with la5 := b }
  | .la15 => { o with la15 := b }

/-- Write a channel level (R23). -/
def setLevel (c : Channel) (l : Nat) (s : State) : State :=
  { s with chanRaw := Channels.withLevel s.chanRaw c l }

/-- Write an overflow bit (R25). -/
def setOvf (c : LoadChannel) (b : Bool) (s : State) : State :=
  { s with ovf := Overflows.withBit s.ovf c b }

end Sys2Proof.Machine
end

