-- ==== Sys2Proof/Machine/Flags.lean ====
section
/-! DEFINITION. The dispatcher's outputs and the status bits they go to (42_dispatcher.md R141;
10_state.md R32). -/

namespace Sys2Proof.Machine

/-- handled(op): the opcode is one of K = 0, 1, 2, 10, 11, 12, 13, 14 (R141). -/
def handledOf (op : Byte) : Bool :=
  decide (op.toNat ≤ 2) || (decide (10 ≤ op.toNat) && decide (op.toNat ≤ 14))

/-- live(op): the opcode is one of 10, 11, 12, 13, 14 (R141). -/
def liveOf (op : Byte) : Bool :=
  decide (10 ≤ op.toNat) && decide (op.toNat ≤ 14)

/-- Store the dispatcher's outputs (h, l) in HANDLED and LIVE (R140, R193). -/
def report (h l : Bool) (s : State) : State := { s with handled := h, live := l }

end Sys2Proof.Machine
end

