-- ==== Sys2Proof/Machine/Identity.lean ====
section
/-! DEFINITION. The identity store (41_identity_store.md R120 to R122) and the identity commands
(42_dispatcher.md R142 to R144). -/

namespace Sys2Proof.Machine

/-- readIdentity(): the storage bytes at addresses 0..7, in order, not validated (R120). -/
def readIdentity (s : State) : Host.Outcome (List Byte) Fault Refusal := loadFrom s 0 8

/-- writeIdentity(tok): the token's bytes to addresses 0..7, in order (R122). -/
def writeIdentity (t : Token) (s : State) : Host.Outcome State Fault Refusal := storeFrom 0 t.bytes s

/-- render(tok): the bytes of the response line, the terminating NUL never among them (R121). -/
def render (r : Config.IdRender) (tok : List Byte) : List Byte :=
  match r with
  | .cstring => let buf := tok ++ [0x00#8]; buf.take (buf.idxOf 0x00#8)
  | .raw8 => tok

/-- GETNAME: emit the device identity string as a line (R142). -/
def execGetname (s : State) : Host.Outcome State Fault Refusal :=
  .next (report true false (emit (s.cfg.deviceName ++ s.cfg.lineEnd) s))

/-- GETID: read the token and emit it as a line (R143). -/
def execGetid (s : State) : Host.Outcome State Fault Refusal :=
  andThen (readIdentity s) fun tok =>
    .next (report true false (emit (render s.cfg.idRender tok ++ s.cfg.lineEnd) s))

/-- SETID: write the payload as the token (R144). -/
def execSetid (t : Token) (s : State) : Host.Outcome State Fault Refusal :=
  andThen (writeIdentity t s) fun s' => .next (report true false s')

end Sys2Proof.Machine
end

