-- ==== Sys2Proof/Machine/Nop.lean ====
section
/-! DEFINITION. The unassigned opcodes (42_dispatcher.md R150; 30_encoding.md R76). -/

namespace Sys2Proof.Machine

/-- NOP: nothing but HANDLED and LIVE cleared, whatever the opcode byte (R150). -/
def execNop (_op : Byte) (s : State) : Host.Outcome State Fault Refusal := .next (report false false s)

end Sys2Proof.Machine
end

