-- ==== Sys2Proof/Machine/Operands.lean ====
section
/-! DEFINITION. The value operand as the number it stands for (30_encoding.md R73; 40_output_mapper.md
R104, R109). -/

namespace Sys2Proof.Machine

/-- The value operand, unsigned, neither extended, scaled nor shifted (R73). -/
def operandValue (v : Byte) : Nat := v.toNat

/-- The load average operand exceeds LA_MAX; v = LA_MAX does not (R104; 90_conflicts.md C2). -/
def loadOverflows (L : Config.Literals) (v : Byte) : Bool := decide (L.laMax < operandValue v)

/-- The displayed load average, load times ten, clamped to LA_MAX (R104, R109). -/
def clampedLoad (L : Config.Literals) (v : Byte) : Nat := min (operandValue v) L.laMax

end Sys2Proof.Machine
end

