-- ==== Sys2Proof/Machine/Mapper.lean ====
section
/-! DEFINITION. The output mapper: two pure functions of a byte (40_output_mapper.md R100 to R105). -/

namespace Sys2Proof.Machine

/-- roundDiv(n, d): n / d rounded by MAP_ROUND (R101). -/
def roundDiv (m : Config.RoundMode) (n d : Nat) : Nat :=
  let q := n / d
  let r := n - q * d
  match m with
  | .halfUp => (2 * n + d) / (2 * d)
  | .floor => q
  | .halfEven =>
    if 2 * r < d then q
    else if d < 2 * r then q + 1
    else if q % 2 = 0 then q
    else q + 1

/-- roundDiv(OUT_MAX x, PCT_IN_MAX), the linear rescale from the percent domain to the drive range (R100, R104). -/
def rescale (L : Config.Literals) (m : Config.RoundMode) (x : Nat) : Nat :=
  roundDiv m (L.outMax * x) (pctInMax L)

/-- mapPercent(v): the rescale of the raw byte, not clamped, held in RAW_W bits (R100, R102). -/
def mapPercent (L : Config.Literals) (m : Config.RoundMode) (v : Byte) : Nat :=
  rescale L m (operandValue v) % 2 ^ L.rawW

/-- mapLoadAverage(v): the rescale of the clamped byte, and whether it was clamped (R104, log 14). -/
def mapLoadAverage (L : Config.Literals) (m : Config.RoundMode) (v : Byte) : Nat × Bool :=
  (rescale L m (clampedLoad L v) % 2 ^ L.rawW, loadOverflows L v)

end Sys2Proof.Machine
end

