-- ==== Sys2Proof/Machine/Telemetry.lean ====
section
/-! DEFINITION. The telemetry commands (42_dispatcher.md R145 to R149). -/

namespace Sys2Proof.Machine

/-- A percent command: the channel's level is mapPercent(v); the command is handled and live (R145, R146). -/
def setPercent (c : Channel) (v : Byte) (s : State) : State :=
  report true true (setLevel c (mapPercent s.cfg.literals s.cfg.mapRound v) s)

/-- A load average command: level and overflow bit are mapLoadAverage(v); the command is handled and
live (R147 to R149). -/
def setLoad (c : LoadChannel) (v : Byte) (s : State) : State :=
  let p := mapLoadAverage s.cfg.literals s.cfg.mapRound v
  report true true (setOvf c p.2 (setLevel (LoadChannel.channel c) p.1 s))

/-- CPU: the CPU percent channel (R145). -/
def execCpu (v : Byte) (s : State) : Host.Outcome State Fault Refusal := .next (setPercent .cpu v s)

/-- MEM: the memory percent channel (R146). -/
def execMem (v : Byte) (s : State) : Host.Outcome State Fault Refusal := .next (setPercent .mem v s)

/-- LA1: the load average 1 channel and OVF[0] (R147). -/
def execLa1 (v : Byte) (s : State) : Host.Outcome State Fault Refusal := .next (setLoad .la1 v s)

/-- LA5: the load average 5 channel and OVF[1] (R148). -/
def execLa5 (v : Byte) (s : State) : Host.Outcome State Fault Refusal := .next (setLoad .la5 v s)

/-- LA15: the load average 15 channel and OVF[2] (R149). -/
def execLa15 (v : Byte) (s : State) : Host.Outcome State Fault Refusal := .next (setLoad .la15 v s)

end Sys2Proof.Machine
end

