-- ==== Sys2Proof/Machine/Dispatch.lean ====
section
/-! DEFINITION. The opcode dispatch router: exactly one command per frame (42_dispatcher.md R140). -/

namespace Sys2Proof.Machine

/-- Perform one command and store the dispatcher's outputs in HANDLED and LIVE (R140, R193). -/
def exec (i : Instr) (s : State) : Host.Outcome State Fault Refusal :=
  match i with
  | .getname => Sys2Proof.Machine.execGetname s
  | .getid => Sys2Proof.Machine.execGetid s
  | .setid t => Sys2Proof.Machine.execSetid t s
  | .cpu v => Sys2Proof.Machine.execCpu v s
  | .mem v => Sys2Proof.Machine.execMem v s
  | .la1 v => Sys2Proof.Machine.execLa1 v s
  | .la5 v => Sys2Proof.Machine.execLa5 v s
  | .la15 v => Sys2Proof.Machine.execLa15 v s
  | .nop op => Sys2Proof.Machine.execNop op s

end Sys2Proof.Machine
end

