-- ==== Sys2Proof/Machine/Environment.lean ====
section
/-! DEFINITION. What the environment does between cycles: RxPush (44_frame_reader.md R190), RxFlush
(R196), Tick (60_exceptions.md R217), reset and power loss (70_reset_and_hazards.md R240, R241;
41_identity_store.md R125); and main-loop entry (R243). -/

namespace Sys2Proof.Machine

/-- RxPush(b): append, or at a full queue lose the byte (DROP_NEW) or any one byte, queued or arriving
(ANY_DROP, which one a free value) (R190, log 13). -/
def rxPush (b : Byte) (s : State) : State :=
  if s.rxq.length < rxqCap s.cfg then { s with rxq := s.rxq ++ [b] }
  else
    match s.cfg.rxOverflow with
    | .dropNew => s
    | .anyDrop =>
      { s with
        rxq := (s.rxq ++ [b]).eraseIdx (Config.freeIndex s.draws % (s.rxq.length + 1))
        draws := s.draws + 1 }

/-- RxFlush(): empty the queue and touch nothing else (R196). -/
def rxFlush (s : State) : State := { s with rxq := [] }

/-- The first `n` entries of a list, filled up with `d`: a free list, cut to the number of things there are. -/
def fit {α : Type} (n : Nat) (d : α) (l : List α) : List α := (l ++ List.replicate n d).take n

/-- Levels of RAW_W bits, N_CHAN of them, from free values (R23). -/
def fitChannels (L : Config.Literals) (c : Channels) : Channels where
  cpu := c.cpu % 2 ^ L.rawW
  mem := c.mem % 2 ^ L.rawW
  la1 := c.la1 % 2 ^ L.rawW
  la5 := c.la5 % 2 ^ L.rawW
  la15 := c.la15 % 2 ^ L.rawW
  more := (fit L.chanExtra 0 c.more).map (· % 2 ^ L.rawW)

/-- N_OVF overflow bits from free values (R25). -/
def fitOvf (L : Config.Literals) (o : Overflows) : Overflows := { o with more := fit L.ovfExtra false o.more }

/-- A frame of FRAME_LEN bytes from free values (R22). -/
def fitFrame (L : Config.Literals) (f : Frame) : Frame := { f with more := fit L.payloadExtra 0 f.more }

/-- The outputs while the block boots: CHAN_RAW, OVF and ACTIVE hold any value (R23, R25, R26, R242). -/
def bootOutputs (s : State) : State :=
  { s with
    chanRaw := fitChannels s.cfg.literals (Config.freeChannels s.draws)
    ovf := fitOvf s.cfg.literals (Config.freeOvf s.draws)
    active := Config.freeActive s.draws
    draws := s.draws + 1 }

/-- Tick(): one time unit passes (R217). During BOOT it counts towards BOOT_TICKS, and the demonstration
may have changed every output (R242, log 5). -/
def tick (s : State) : State :=
  let t := { s with time := (s.time + 1) % 2 ^ s.cfg.timeW }
  match s.phase with
  | .run => t
  | .boot => bootOutputs { t with bootElapsed := t.bootElapsed + 1 }

/-- A block reset: power-on and external reset alike (R240, R241). NVM and TX are kept; FRAME, CHAN_RAW,
OVF and ACTIVE hold any value. -/
def blockReset (s : State) : State :=
  bootOutputs
    { s with
      phase := .boot
      time := 0
      lastLive := 0
      rxq := []
      frame := fitFrame s.cfg.literals (Config.freeFrame s.draws)
      dispatched := false
      handled := false
      live := false
      bootElapsed := 0 }

/-- Power lost, or reset, during write `k` of the SETID whose frame the next cycle would read: the bytes
before address `k` are new, the byte at `k` is any value, those after it are old, and the block resets. With
no such SETID in progress it is a plain reset (R125, R213, R240, log 12). -/
def tornWrite (k : Fin 8) (s : State) : Host.Outcome State Fault Refusal :=
  match s.phase, takeFrame s.cfg.literals s.rxq with
  | .run, some (f, _) =>
    match decodeFrame f with
    | .setid t =>
      andThen (storeFrom 0 (t.bytes.take k.val ++ [Config.freeByte s.draws]) s) fun s' =>
        .next (blockReset { s' with draws := s'.draws + 1 })
    | _ => .next (blockReset s)
  | _, _ => .next (blockReset s)

/-- One environment event (R10, R198). -/
def happen (e : Event) (s : State) : Host.Outcome State Fault Refusal :=
  match e with
  | .rxPush b => .next (rxPush b s)
  | .tick => .next (tick s)
  | .rxFlush => .next (rxFlush s)
  | .reset => .next (blockReset s)
  | .tornWrite k => tornWrite k s

/-- BOOT_TICKS ticks have passed in BOOT, so that main-loop entry is due (R242, R243, log 10). -/
def entryDue (s : State) : Bool :=
  match s.phase with
  | .run => false
  | .boot => decide (s.cfg.bootTicks ≤ s.bootElapsed)

/-- EnterMainLoop() (R243). -/
def enterMainLoop (s : State) : State :=
  { s with
    chanRaw := ⟨0, 0, 0, 0, 0, List.replicate s.cfg.literals.chanExtra 0⟩
    ovf := ⟨false, false, false, List.replicate s.cfg.literals.ovfExtra false⟩
    active := s.cfg.activeInit
    phase := .run }

end Sys2Proof.Machine
end

