-- ==== Sys2Proof/Machine/FrameReader.lean ====
section
/-! DEFINITION. The frame-reader step, which fetches the next frame (44_frame_reader.md R191). -/

namespace Sys2Proof.Machine

/-- FrameRead(): latch the frame at the head of RXQ if FRAME_LEN bytes are queued, and say so in DISPATCHED (R191). -/
def frameRead (s : State) : State :=
  match takeFrame s.cfg.literals s.rxq with
  | some (f, rest) => { s with frame := f, rxq := rest, dispatched := true }
  | none => { s with dispatched := false }

end Sys2Proof.Machine
end

