-- ==== Sys2Proof/Machine/Watchdog.lean ====
section
/-! DEFINITION. The link watchdog (43_watchdog.md R170 to R172). -/

namespace Sys2Proof.Machine

/-- elapsed = (now - LAST_LIVE) mod 2^TIME_W, as an integer difference, never negative (R171, R172). -/
def elapsed (timeW now last : Nat) : Nat :=
  (((now : Int) - (last : Int)) % ((2 ^ timeW : Nat) : Int)).toNat

/-- Watchdog(LIVE, now) with now = TIME, sampled once: a live cycle stores the time and raises ACTIVE, any
other clears ACTIVE once THRESH units have elapsed (R170, R171). -/
def watchdog (s : State) : State :=
  if s.live then { s with lastLive := s.time, active := true }
  else if s.cfg.thresh ≤ elapsed s.cfg.timeW s.time s.lastLive then { s with active := false }
  else s

end Sys2Proof.Machine
end

