-- ==== Sys2Proof/Machine/Cycle.lean ====
section
/-! DEFINITION. One RUN cycle (44_frame_reader.md R193), and whose move is next (R198; 60_exceptions.md
R213). -/

namespace Sys2Proof.Machine

/-- The dispatch of a cycle: with a frame latched, its command; without one, HANDLED and LIVE are 0 (R193). -/
def dispatch (s : State) : Host.Outcome State Fault Refusal :=
  if s.dispatched then exec (decodeFrame s.frame) s else .next (report false false s)

/-- Cycle(): frame-reader step, then dispatch, then watchdog step (R193). -/
def cycle (s : State) : Host.Outcome State Fault Refusal :=
  andThen (dispatch (frameRead s)) fun t => .next (watchdog t)

/-- The move the block makes by itself: in RUN a cycle; in BOOT main-loop entry once it is due, and until then time
passes (R33, R198, R242, R243, log 3). -/
def ownTurn (s : State) : Turn :=
  match s.phase with
  | .run => .cycle
  | .boot => if entryDue s then .enter else .event .tick

/-- The head of the schedule, and the state with it taken off. At the schedule's end the block moves, and the events
before its next move are a free value (R198, log 3). -/
def nextTurn (s : State) : Turn × State :=
  match s.turns with
  | t :: rest => (t, { s with turns := rest })
  | [] =>
    (ownTurn s,
      { s with turns := (Config.freeEvents s.draws).map Turn.event, draws := s.draws + 1 })

/-- A turn that main-loop entry comes before once it is due: a cycle, which only RUN has, and a tick, since BOOT lasts
BOOT_TICKS of them (R33, R242). Every other event can come before the entry, a reset among them (R213, log 10). -/
def afterEntry : Turn → Bool
  | .cycle => true
  | .event .tick => true
  | .enter => false
  | .event (.rxPush _) => false
  | .event .rxFlush => false
  | .event .reset => false
  | .event (.tornWrite _) => false

/-- The move of the next step, and the state it is made in: main-loop entry, the schedule kept, where it is due and the
next turn comes after it; else the next turn (R198, R213, R243, log 10). -/
def nextMove (s : State) : Turn × State :=
  if entryDue s && afterEntry (nextTurn s).1 then (.enter, s) else nextTurn s

/-- Take a move. A cycle in BOOT and an entry that is not due do nothing (R33, R243, log 11). -/
def takeTurn (t : Turn) (s : State) : Host.Outcome State Fault Refusal :=
  match t with
  | .event e => happen e s
  | .enter => .next (if entryDue s then enterMainLoop s else s)
  | .cycle =>
    match s.phase with
    | .run => cycle s
    | .boot => .next s

/-- Make the next move. -/
def advance (s : State) : Host.Outcome State Fault Refusal := takeTurn (nextMove s).1 (nextMove s).2

/-- Bytes at the head of the receive queue of a running block whose next move is a cycle: what boot, the
host's pushes and the schedule bring about (log 4). -/
def withFrameBytes (s : State) (bs : List Byte) : State :=
  let r := match s.phase with
    | .run => s
    | .boot => enterMainLoop s
  { r with rxq := bs, turns := .cycle :: r.turns }

end Sys2Proof.Machine
end

