-- ==== Sys2Proof/Machine/Step.lean ====
section
/-! DEFINITION. One step of the machine, and a frame placed where the next step fetches. -/

namespace Sys2Proof.Machine

/-- One step: main-loop entry, one environment event, or one cycle (00_scope.md R10; 44_frame_reader.md R198;
70_reset_and_hazards.md R243). -/
def step (s : State) : Host.Outcome State Fault Refusal := advance s

/-- The frame whose bits are `w` in the table's numbering, queued so that the very next step runs it
(log 4); with a FRAME_LEN above the table's 9, zeros follow. -/
def State.withFetchWord (s : State) (nbits w : Nat) : State :=
  withFrameBytes s (tableWordBytes nbits w ++ List.replicate s.cfg.literals.payloadExtra 0)

end Sys2Proof.Machine
end

