-- ==== Sys2Proof/Machine/Outputs.lean ====
section
/-! DEFINITION. The nine output lines, pure functions of the state (60_exceptions.md R219;
40_output_mapper.md R106). Nothing in the block reads them. -/

namespace Sys2Proof.Machine

/-- DRIVE of a level: its low DRIVE_W bits (R106). -/
def driveOf (cfg : Config.Params) (l : Nat) : Nat := l % 2 ^ cfg.driveW

/-- The value each line presents: in RUN the registers' values, in BOOT any value (R106, R219, R242, log 20). -/
def lines (s : State) : Lines :=
  match s.phase with
  | .run =>
    { cpu := driveOf s.cfg s.chanRaw.cpu
      mem := driveOf s.cfg s.chanRaw.mem
      la1 := driveOf s.cfg s.chanRaw.la1
      la5 := driveOf s.cfg s.chanRaw.la5
      la15 := driveOf s.cfg s.chanRaw.la15
      ovfLa1 := s.ovf.la1
      ovfLa5 := s.ovf.la5
      ovfLa15 := s.ovf.la15
      active := s.active
      more := s.chanRaw.more.map (driveOf s.cfg)
      ovfMore := s.ovf.more }
  | .boot =>
    let l := Config.freeLines s.draws s.time
    { l with
      cpu := l.cpu % 2 ^ s.cfg.driveW
      mem := l.mem % 2 ^ s.cfg.driveW
      la1 := l.la1 % 2 ^ s.cfg.driveW
      la5 := l.la5 % 2 ^ s.cfg.driveW
      la15 := l.la15 % 2 ^ s.cfg.driveW
      more := (fit s.cfg.literals.chanExtra 0 l.more).map (driveOf s.cfg)
      ovfMore := fit s.cfg.literals.ovfExtra false l.ovfMore }

end Sys2Proof.Machine
end

