-- ==== Sys2Proof/Safety.lean ====
section
/-! DEFINITION. What the statements speak in: the invariant of the machine, what a step accepts and
dispatches, and runs without a realignment. -/

namespace Sys2Proof.Safety

open Sys2Proof.Machine

/-- The level a load average channel saturates at: the clamp's, 255 under the source's literals (R105). -/
def saturated (cfg : Config.Params) : Nat :=
  rescale cfg.literals cfg.mapRound cfg.literals.laMax % 2 ^ cfg.literals.rawW

/-- What holds of the state at all times. -/
structure Inv (s : State) : Prop where
  /-- RXQ holds at most RXQ_CAP bytes (R29) -/
  queue : s.rxq.length ≤ rxqCap s.cfg
  /-- TIME is a TIME_W-bit number (R28) -/
  time : s.time < 2 ^ s.cfg.timeW
  /-- LAST_LIVE is a TIME_W-bit number (R27) -/
  lastLive : s.lastLive < 2 ^ s.cfg.timeW
  /-- the storage list has its canonical form -/
  storage : Memory.wf s.cfg s.nvm = true
  /-- FRAME has FRAME_LEN bytes (R22) -/
  frameBytes : s.frame.bytes.length = frameLen s.cfg.literals
  /-- there are N_CHAN levels and N_OVF overflow bits (R23, R25) -/
  counts : (Channels.levels s.chanRaw).length = nChan s.cfg.literals ∧
    (Overflows.bits s.ovf).length = nOvf s.cfg.literals
  /-- a level is a RAW_W-bit number (R23) -/
  levels : ∀ l ∈ Channels.levels s.chanRaw, l < 2 ^ s.cfg.literals.rawW
  /-- a percent channel is at most the rescale of 255 from main-loop entry on, 650 under the source's literals (R23,
  R100) -/
  percent : s.phase = .run →
    s.chanRaw.cpu ≤ rescale s.cfg.literals s.cfg.mapRound 255 ∧
      s.chanRaw.mem ≤ rescale s.cfg.literals s.cfg.mapRound 255
  /-- a load average channel is at most the rescale of LA_MAX from main-loop entry on, 255 under the source's literals
  (R105) -/
  load : s.phase = .run →
    s.chanRaw.la1 ≤ rescale s.cfg.literals s.cfg.mapRound s.cfg.literals.laMax ∧
      s.chanRaw.la5 ≤ rescale s.cfg.literals s.cfg.mapRound s.cfg.literals.laMax ∧
      s.chanRaw.la15 ≤ rescale s.cfg.literals s.cfg.mapRound s.cfg.literals.laMax
  /-- an overflow bit is set only over a saturated channel (R105) -/
  overflow : s.phase = .run →
    (s.ovf.la1 = true → s.chanRaw.la1 = saturated s.cfg) ∧ (s.ovf.la5 = true → s.chanRaw.la5 = saturated s.cfg) ∧
      (s.ovf.la15 = true → s.chanRaw.la15 = saturated s.cfg)
  /-- no command writes a channel or a bit outside the index map (R24) -/
  unmapped : s.phase = .run → (∀ l ∈ s.chanRaw.more, l = 0) ∧ true ∉ s.ovf.more
  /-- a live command is handled, and a handled one was dispatched (R32, R141) -/
  status : (s.live = true → s.handled = true) ∧ (s.handled = true → s.dispatched = true)
  /-- after a live cycle, and until the next cycle, the link is active (R171, R174) -/
  liveActive : s.live = true → s.active = true
  /-- during BOOT no cycle has set a status bit or LAST_LIVE (R241, R242) -/
  bootQuiet : s.phase = .boot →
    s.dispatched = false ∧ s.handled = false ∧ s.live = false ∧ s.lastLive = 0
  /-- during BOOT, TIME counts the ticks since reset (R177, R243) -/
  bootTime : s.phase = .boot → s.time = s.bootElapsed % 2 ^ s.cfg.timeW
  /-- BOOT lasts no longer than BOOT_TICKS (R242) -/
  bootLength : s.phase = .boot → s.bootElapsed ≤ s.cfg.bootTicks

/-- The byte sequence's first frame, if it has one, is no live telemetry, and so on frame by frame: no byte
at a frame boundary that has a whole frame after it is an opcode in 10..14 (R141, R192). -/
def NoLiveFrame (L : Config.Literals) (q : List Byte) : Prop :=
  ∀ (k : Nat) (b : Byte), frameLen L * k + frameLen L ≤ q.length → q[frameLen L * k]? = some b → liveOf b = false

/-- The move the next step makes. -/
def moveOf (s : State) : Turn := (nextMove s).1

/-- The next step is a cycle of the running block. -/
def runsCycle (s : State) : Prop := s.phase = .run ∧ moveOf s = .cycle

/-- The next step is a reset of the block, torn write or not (R240). -/
def resets (s : State) : Prop :=
  moveOf s = .event .reset ∨ ∃ k, moveOf s = .event (.tornWrite k)

/-- The next step restores frame alignment: a reset or a transport reset (R194, R196). -/
def realigns (s : State) : Prop := resets s ∨ moveOf s = .event .rxFlush

/-- The next step writes storage: a cycle that dispatches SETID, or a reset inside one (R51, R125). -/
def writesStorage (s : State) : Prop :=
  s.phase = .run ∧ (∃ tok rest, decode s.cfg.literals s.rxq = .ok (.setid tok, rest)) ∧
    (moveOf s = .cycle ∨ ∃ k, moveOf s = .event (.tornWrite k))

/-- The byte the next step accepts into RXQ, under DROP_NEW (R190). -/
def accepted (s : State) : List Byte :=
  match moveOf s with
  | .event (.rxPush b) => if s.rxq.length < rxqCap s.cfg then [b] else []
  | _ => []

/-- The frame the next step dispatches (R191, R193). -/
def dispatchedFrame (s : State) : List Frame :=
  match s.phase, moveOf s, takeFrame s.cfg.literals s.rxq with
  | .run, .cycle, some (f, _) => [f]
  | _, _, _ => []

/-- The bytes accepted and the frames dispatched in the next `n` steps, in order. -/
def history : Nat → State → List Byte × List Frame
  | 0, _ => ([], [])
  | n + 1, s =>
    match step s with
    | .next t => (accepted s ++ (history n t).1, dispatchedFrame s ++ (history n t).2)
    | _ => ([], [])

/-- None of the next `n` steps satisfies `P`. -/
def Avoids (P : State → Prop) (n : Nat) (s : State) : Prop :=
  ∀ (k : Nat) (t : State), k < n → core.run k s = .next t → ¬ P t

/-- The schedule in which each cycle follows a number of ticks, one number per cycle (R198). -/
def tickedCycles (gaps : List Nat) : List Turn :=
  gaps.flatMap fun g => List.replicate g (.event .tick) ++ [.cycle]

end Sys2Proof.Safety
end

