-- ==== Sys2Proof/Certificates/Slice0/Obligations.lean ====
section
/-! DEFINITION. The statements about the block, each from the rules of spec/ that its docstring names. -/

open Sys2Proof Sys2Proof.Machine Sys2Proof.Safety

/-! ### Encoding (30_encoding.md) -/

/-- R75, R79: a well-formed command's frame, with any bytes after it, decodes to that command and leaves
those bytes. -/
def Obligations.DecodeOfEncode : Prop :=
  ∀ (L : Config.Literals) (i : Instr) (rest : List Byte), i.wf = true →
    decode L (encode L i ++ rest) = .ok (i, rest)

/-- R77: every sequence of FRAME_LEN bytes, 9 under the source's literals, decodes, to one command, whatever its
bytes; fewer bytes are a partial frame (R70). -/
def Obligations.EveryFrameDecodes : Prop :=
  frameLen Config.sourceLiterals = 9 ∧
  ∀ (L : Config.Literals) (bs : List Byte),
    (frameLen L ≤ bs.length → ∃ i, i.wf = true ∧ decode L bs = .ok (i, bs.drop (frameLen L))) ∧
    (bs.length < frameLen L → decode L bs = .error (.partialFrame bs.length))

/-- R75: the opcode map, row by row, the operands as R73 gives them. -/
def Obligations.OpcodeMapRows : Prop :=
  ∀ (p : Token) (e : List Byte),
    decodeFrame ⟨0#8, p, e⟩ = .getname ∧ decodeFrame ⟨1#8, p, e⟩ = .getid ∧
    decodeFrame ⟨2#8, p, e⟩ = .setid p ∧ decodeFrame ⟨10#8, p, e⟩ = .cpu p.t0 ∧
    decodeFrame ⟨11#8, p, e⟩ = .mem p.t0 ∧ decodeFrame ⟨12#8, p, e⟩ = .la1 p.t0 ∧
    decodeFrame ⟨13#8, p, e⟩ = .la5 p.t0 ∧ decodeFrame ⟨14#8, p, e⟩ = .la15 p.t0 ∧
    ∀ op : Byte, (3 ≤ op.toNat ∧ op.toNat ≤ 9) ∨ 15 ≤ op.toNat → decodeFrame ⟨op, p, e⟩ = .nop op

/-- R74: two frames that differ only in ignored bytes have the same effect. -/
def Obligations.IgnoredPayloadHasNoEffect : Prop :=
  ∀ (f g : Frame) (s : State), f.op = g.op →
    (f.op = 0#8 ∨ f.op = 1#8 ∨ (3 ≤ f.op.toNat ∧ f.op.toNat ≤ 9) ∨ 15 ≤ f.op.toNat ∨
      (10 ≤ f.op.toNat ∧ f.op.toNat ≤ 14 ∧ f.payload.t0 = g.payload.t0)) →
    exec (decodeFrame f) s = exec (decodeFrame g) s

/-- Words written out from R79 and the vectors of 95_test_vectors.md section 2.3 decode to the commands
they stand for. -/
def Obligations.WrittenWordsDecode : Prop :=
  decode Config.sourceLiterals [0x00, 0xFF, 0xFF, 0xFF, 0xFF, 0xFF, 0xFF, 0xFF, 0xFF] = .ok (.getname, []) ∧
  decode Config.sourceLiterals [0x02, 0x51, 0x43, 0x2D, 0x30, 0x30, 0x30, 0x34, 0x32] =
    .ok (.setid ⟨0x51, 0x43, 0x2D, 0x30, 0x30, 0x30, 0x34, 0x32⟩, []) ∧
  decode Config.sourceLiterals [0x0A, 0x2A, 0x11, 0x22, 0x33, 0x44, 0x55, 0x66, 0x77, 0x0B] = .ok (.cpu 42, [0x0B]) ∧
  decode Config.sourceLiterals [0x0E, 0x65, 0, 0, 0, 0, 0, 0, 0] = .ok (.la15 101, []) ∧
  decode Config.sourceLiterals [0xFF, 1, 2, 3, 4, 5, 6, 7, 8] = .ok (.nop 0xFF, [])

/-! ### Output mapper (40_output_mapper.md) -/

/-- R101: the three rounding modes, by quotient and remainder. -/
def Obligations.RoundDivByMode : Prop :=
  ∀ n d : Nat, 0 < d →
    roundDiv .halfUp n d = (2 * n + d) / (2 * d) ∧
    roundDiv .halfUp n d = (if d ≤ 2 * (n % d) then n / d + 1 else n / d) ∧
    roundDiv .halfUp n 100 = (n + 50) / 100 ∧
    roundDiv .floor n d = n / d ∧
    (2 * (n % d) < d → roundDiv .halfEven n d = n / d) ∧
    (d < 2 * (n % d) → roundDiv .halfEven n d = n / d + 1) ∧
    (2 * (n % d) = d → n / d % 2 = 0 → roundDiv .halfEven n d = n / d) ∧
    (2 * (n % d) = d → n / d % 2 = 1 → roundDiv .halfEven n d = n / d + 1)

/-- R100: under the source's literals mapPercent is roundDiv(255 v, 100), held exactly in 10 bits, in 0..650, at most
255 for v in 0..100 and above it for v in 101..255. -/
def Obligations.MapPercentExact : Prop :=
  ∀ (m : Config.RoundMode) (v : Byte),
    mapPercent Config.sourceLiterals m v = roundDiv m (255 * v.toNat) 100 ∧
    mapPercent Config.sourceLiterals m v ≤ 650 ∧
    (v.toNat ≤ 100 → mapPercent Config.sourceLiterals m v ≤ 255) ∧
    (101 ≤ v.toNat → 256 ≤ mapPercent Config.sourceLiterals m v)

/-- R103: where the tie inputs are, and where the rounding modes differ, under the source's literals. -/
def Obligations.RoundingModesDifferAt : Prop :=
  ∀ v : Byte,
    (255 * v.toNat % 100 = 50 ↔ v.toNat % 20 = 10) ∧
    (mapPercent Config.sourceLiterals .halfUp v ≠ mapPercent Config.sourceLiterals .halfEven v ↔
      v.toNat ∈ [30, 70, 110, 150, 190, 230]) ∧
    (mapPercent Config.sourceLiterals .floor v ≠ mapPercent Config.sourceLiterals .halfUp v ↔
      50 ≤ 255 * v.toNat % 100) ∧
    (50 ≤ 255 * v.toNat % 100 →
      mapPercent Config.sourceLiterals .floor v = mapPercent Config.sourceLiterals .halfUp v - 1)

/-- R108: under the source's literals mapPercent is strictly increasing in every mode, 0 at 0 and 255 at 100; the
8-bit drive value is not monotonic above 100. -/
def Obligations.MapPercentStrictlyIncreasing : Prop :=
  (∀ (m : Config.RoundMode) (v w : Byte), v.toNat < w.toNat →
    mapPercent Config.sourceLiterals m v < mapPercent Config.sourceLiterals m w) ∧
  (∀ m : Config.RoundMode,
    mapPercent Config.sourceLiterals m 0#8 = 0 ∧ mapPercent Config.sourceLiterals m 100#8 = 255) ∧
  (∀ cfg : Config.Params, cfg.driveW = 8 →
    (∀ m, driveOf cfg (mapPercent Config.sourceLiterals m 100#8) = 255) ∧
      driveOf cfg (mapPercent Config.sourceLiterals .halfUp 101#8) = 2 ∧
      driveOf cfg (mapPercent Config.sourceLiterals .floor 101#8) = 1)

/-- R104: under the source's literals the load average mapping is the percent mapping of the clamped byte, with
overflow above 100. -/
def Obligations.MapLoadAverageClamps : Prop :=
  ∀ (m : Config.RoundMode) (v : Byte),
    (mapLoadAverage Config.sourceLiterals m v).1 = roundDiv m (255 * min v.toNat 100) 100 ∧
    (mapLoadAverage Config.sourceLiterals m v).1 =
      (if v.toNat ≤ 100 then mapPercent Config.sourceLiterals m v else mapPercent Config.sourceLiterals m 100#8) ∧
    ((mapLoadAverage Config.sourceLiterals m v).2 = true ↔ 100 < v.toNat)

/-- R105: under the source's literals the load average mapping saturates at 255 from v = 100 on, is nondecreasing, and
overflows from v = 101 on. -/
def Obligations.MapLoadAverageSaturates : Prop :=
  ∀ (m : Config.RoundMode) (v w : Byte),
    (100 ≤ v.toNat → (mapLoadAverage Config.sourceLiterals m v).1 = 255 ∧
      (mapLoadAverage Config.sourceLiterals m v).1 = mapPercent Config.sourceLiterals m 100#8) ∧
    (101 ≤ v.toNat → mapLoadAverage Config.sourceLiterals m v = (255, true)) ∧
    (v.toNat = 100 → mapLoadAverage Config.sourceLiterals m v = (255, false)) ∧
    (mapLoadAverage Config.sourceLiterals m v).1 ≤ 255 ∧
    (v.toNat ≤ w.toNat →
      (mapLoadAverage Config.sourceLiterals m v).1 ≤ (mapLoadAverage Config.sourceLiterals m w).1)

/-- R106, R219: in RUN each drive line presents the low DRIVE_W bits of its channel, and the digital lines
present OVF and ACTIVE. The last two clauses, lines beyond the nine for channels and bits beyond the index map, are the
model's choice (log 14); under the source's literals there are none. -/
def Obligations.LinesPresentRegisters : Prop :=
  ∀ s : State, s.phase = .run →
    (lines s).cpu = s.chanRaw.cpu % 2 ^ s.cfg.driveW ∧
    (lines s).mem = s.chanRaw.mem % 2 ^ s.cfg.driveW ∧
    (lines s).la1 = s.chanRaw.la1 % 2 ^ s.cfg.driveW ∧
    (lines s).la5 = s.chanRaw.la5 % 2 ^ s.cfg.driveW ∧
    (lines s).la15 = s.chanRaw.la15 % 2 ^ s.cfg.driveW ∧
    (lines s).ovfLa1 = s.ovf.la1 ∧ (lines s).ovfLa5 = s.ovf.la5 ∧ (lines s).ovfLa15 = s.ovf.la15 ∧
    (lines s).active = s.active ∧
    (lines s).more = s.chanRaw.more.map (· % 2 ^ s.cfg.driveW) ∧ (lines s).ovfMore = s.ovf.more

/-! ### Identity store (20_memory.md, 41_identity_store.md) -/

/-- R51, R56: the storage bytes at addresses below NVM_SIZE, 0..7 among them, are always readable and
writable, a write shows at its address alone, and an address at or above NVM_SIZE does not exist (log 8). -/
def Obligations.StorageReadsAndWrites : Prop :=
  ∀ (s : State) (a : Nat) (v : Byte),
    8 ≤ nvmSize s.cfg ∧
    (a < nvmSize s.cfg →
      (∃ b, memRead s a = .next b) ∧
      ∃ t, memWrite s a v = .next t ∧ memRead t a = .next v ∧
        (∀ a', a' ≠ a → memRead t a' = memRead s a') ∧ t = { s with nvm := t.nvm }) ∧
    (nvmSize s.cfg ≤ a →
      memRead s a = .fault (.noSuchStorage a) ∧ memWrite s a v = .fault (.noSuchStorage a))

/-- R121: how a byte sequence is rendered; the terminating NUL is not emitted. -/
def Obligations.RenderByMode : Prop :=
  ∀ tok : List Byte,
    render .raw8 tok = tok ∧
    (0#8 ∉ tok → render .cstring tok = tok) ∧
    (∀ p q, tok = p ++ 0#8 :: q → 0#8 ∉ p → render .cstring tok = p) ∧
    0#8 ∉ render .cstring tok

/-- R124: after SETID, through any steps that do not write storage, resets among them, the token reads back
exactly; rendered, it is the token exactly under RAW8 or when it holds no 0x00. -/
def Obligations.TokenReadsBack : Prop :=
  ∀ (s : State) (tok : Token),
    (∃ t, exec (.setid tok) s = .next t ∧ readIdentity t = .next tok.bytes ∧
      ∀ n, Avoids writesStorage n t →
        ∃ u, core.run n t = .next u ∧ readIdentity u = .next tok.bytes) ∧
    ∀ r : Config.IdRender, render r tok.bytes = tok.bytes ↔ r = .raw8 ∨ 0#8 ∉ tok.bytes

/-- R58, R144: writing the same token again changes nothing. -/
def Obligations.SameTokenAgainChangesNothing : Prop :=
  ∀ (s : State) (tok : Token), Memory.wf s.cfg s.nvm = true →
    ∃ t, exec (.setid tok) s = .next t ∧ exec (.setid tok) t = .next t

/-- R125: a power loss during write k of a SETID leaves the bytes before k new, the byte at k any value (a
free value, of which nothing is claimed), the bytes after k old, and the block in reset. -/
def Obligations.TornTokenWrite : Prop :=
  ∀ (s : State) (k : Fin 8) (tok : Token) (rest : List Byte) (more : List Turn),
    s.phase = .run → s.turns = .event (.tornWrite k) :: more → decode s.cfg.literals s.rxq = .ok (.setid tok, rest) →
    ∃ t, step s = .next t ∧
      (∀ (a : Nat) (b : Byte), a < k.val → tok.bytes[a]? = some b → memRead t a = .next b) ∧
      (∃ b, memRead t k.val = .next b) ∧
      (∀ a, k.val < a → memRead t a = memRead s a) ∧
      t.phase = .boot ∧ t.tx = s.tx

/-- R51, R52: storage changes at addresses 0..7 alone, and only in a cycle that dispatches SETID or in a reset
that interrupts one; a reset of its own, boot and a transport reset leave it. -/
def Obligations.StorageChangesOnlyBySetid : Prop :=
  ∀ s t : State, step s = .next t →
    (∀ a, memRead t a ≠ memRead s a → a < 8) ∧ (¬ writesStorage s → t.nvm = s.nvm)

/-! ### Commands (42_dispatcher.md) -/

/-- R142: GETNAME appends DEVICE_NAME and LINE_END to TX; HANDLED 1, LIVE 0; nothing else changes. -/
def Obligations.GetnameResult : Prop :=
  ∀ s : State, exec .getname s = .next
    { s with tx := s.tx ++ (s.cfg.deviceName ++ s.cfg.lineEnd), handled := true, live := false }

/-- R143, R120: GETID reads the storage bytes 0..7 in order and appends them, rendered, and LINE_END to TX;
HANDLED 1, LIVE 0; nothing else changes. -/
def Obligations.GetidResult : Prop :=
  ∀ s : State, ∃ tok : List Byte, tok.length = 8 ∧
    (∀ (k : Nat) (b : Byte), tok[k]? = some b → memRead s k = .next b) ∧
    exec .getid s = .next
      { s with
        tx := s.tx ++ (render s.cfg.idRender tok ++ s.cfg.lineEnd)
        handled := true
        live := false }

/-- R144, R122: SETID stores its token at addresses 0..7, byte k at address k; HANDLED 1, LIVE 0; every other
byte of storage and everything else is unchanged. -/
def Obligations.SetidResult : Prop :=
  ∀ (s : State) (tok : Token), ∃ t, exec (.setid tok) s = .next t ∧
    (∀ (k : Nat) (b : Byte), tok.bytes[k]? = some b → memRead t k = .next b) ∧
    (∀ a, 8 ≤ a → memRead t a = memRead s a) ∧
    t = { s with nvm := t.nvm, handled := true, live := false }

/-- R145: CPU sets CHAN_RAW[0] to mapPercent(v); HANDLED 1, LIVE 1; nothing else changes. -/
def Obligations.CpuResult : Prop :=
  ∀ (s : State) (v : Byte), exec (.cpu v) s = .next
    { s with
      chanRaw := { s.chanRaw with cpu := mapPercent s.cfg.literals s.cfg.mapRound v }
      handled := true
      live := true }

/-- R146: MEM sets CHAN_RAW[1] to mapPercent(v); HANDLED 1, LIVE 1; nothing else changes. -/
def Obligations.MemResult : Prop :=
  ∀ (s : State) (v : Byte), exec (.mem v) s = .next
    { s with
      chanRaw := { s.chanRaw with mem := mapPercent s.cfg.literals s.cfg.mapRound v }
      handled := true
      live := true }

/-- R147: LA1 sets CHAN_RAW[2] and OVF[0] to mapLoadAverage(v); HANDLED 1, LIVE 1; nothing else changes. -/
def Obligations.La1Result : Prop :=
  ∀ (s : State) (v : Byte), exec (.la1 v) s = .next
    { s with
      chanRaw := { s.chanRaw with la1 := (mapLoadAverage s.cfg.literals s.cfg.mapRound v).1 }
      ovf := { s.ovf with la1 := (mapLoadAverage s.cfg.literals s.cfg.mapRound v).2 }
      handled := true
      live := true }

/-- R148: LA5 sets CHAN_RAW[3] and OVF[1] to mapLoadAverage(v); HANDLED 1, LIVE 1; nothing else changes. -/
def Obligations.La5Result : Prop :=
  ∀ (s : State) (v : Byte), exec (.la5 v) s = .next
    { s with
      chanRaw := { s.chanRaw with la5 := (mapLoadAverage s.cfg.literals s.cfg.mapRound v).1 }
      ovf := { s.ovf with la5 := (mapLoadAverage s.cfg.literals s.cfg.mapRound v).2 }
      handled := true
      live := true }

/-- R149: LA15 sets CHAN_RAW[4] and OVF[2] to mapLoadAverage(v); HANDLED 1, LIVE 1; nothing else changes. -/
def Obligations.La15Result : Prop :=
  ∀ (s : State) (v : Byte), exec (.la15 v) s = .next
    { s with
      chanRaw := { s.chanRaw with la15 := (mapLoadAverage s.cfg.literals s.cfg.mapRound v).1 }
      ovf := { s.ovf with la15 := (mapLoadAverage s.cfg.literals s.cfg.mapRound v).2 }
      handled := true
      live := true }

/-- R150: NOP changes nothing but HANDLED 0 and LIVE 0. -/
def Obligations.NopResult : Prop :=
  ∀ (s : State) (op : Byte), exec (.nop op) s = .next { s with handled := false, live := false }

/-- R141: the dispatch of a frame completes and stores handled and live of its opcode, whatever the payload. -/
def Obligations.DispatchOutputs : Prop :=
  ∀ (f : Frame) (s : State), ∃ t, exec (decodeFrame f) s = .next t ∧
    (t.handled = true ↔ f.op.toNat ∈ [0, 1, 2, 10, 11, 12, 13, 14]) ∧
    (t.live = true ↔ f.op.toNat ∈ [10, 11, 12, 13, 14])

/-- R152: a command writes only the state its rule names, plus HANDLED and LIVE; never ACTIVE or LAST_LIVE,
another channel, another overflow bit, and NVM or TX only where its rule says so. -/
def Obligations.CommandFrame : Prop :=
  ∀ (i : Instr) (s : State), ∃ t, exec i s = .next t ∧
    t = { s with
      tx := t.tx, nvm := t.nvm, chanRaw := t.chanRaw, ovf := t.ovf
      handled := t.handled, live := t.live } ∧
    (i ≠ .getname → i ≠ .getid → t.tx = s.tx) ∧
    ((∀ tok, i ≠ .setid tok) → t.nvm = s.nvm ∧ ∀ a, memRead t a = memRead s a) ∧
    ((∀ v, i ≠ .cpu v) → t.chanRaw.cpu = s.chanRaw.cpu) ∧
    ((∀ v, i ≠ .mem v) → t.chanRaw.mem = s.chanRaw.mem) ∧
    ((∀ v, i ≠ .la1 v) → t.chanRaw.la1 = s.chanRaw.la1 ∧ t.ovf.la1 = s.ovf.la1) ∧
    ((∀ v, i ≠ .la5 v) → t.chanRaw.la5 = s.chanRaw.la5 ∧ t.ovf.la5 = s.ovf.la5) ∧
    ((∀ v, i ≠ .la15 v) → t.chanRaw.la15 = s.chanRaw.la15 ∧ t.ovf.la15 = s.ovf.la15) ∧
    t.chanRaw.more = s.chanRaw.more ∧ t.ovf.more = s.ovf.more

/-! ### Link watchdog (43_watchdog.md) -/

/-- R171: the watchdog step, with elapsed the integer difference modulo 2^TIME_W. -/
def Obligations.WatchdogStep : Prop :=
  ∀ s : State,
    (s.live = true → watchdog s = { s with lastLive := s.time, active := true }) ∧
    (s.live = false →
      (s.cfg.thresh : Int) ≤ ((s.time : Int) - (s.lastLive : Int)) % (2 ^ s.cfg.timeW : Int) →
      watchdog s = { s with active := false }) ∧
    (s.live = false →
      ((s.time : Int) - (s.lastLive : Int)) % (2 ^ s.cfg.timeW : Int) < (s.cfg.thresh : Int) →
      watchdog s = s)

/-- R172: elapsed is the unsigned difference modulo 2^TIME_W, the two-branch form computes it, and it is the
true interval D while D is below 2^TIME_W. -/
def Obligations.ElapsedIsWrapSafe : Prop :=
  ∀ w now last : Nat, now < 2 ^ w → last < 2 ^ w →
    elapsed w now last = (if last ≤ now then now - last else now + (2 ^ w - last)) ∧
    elapsed w now last < 2 ^ w ∧
    ∀ d, d < 2 ^ w → now = (last + d) % 2 ^ w → elapsed w now last = d

/-- R173: in RUN, ACTIVE rises and LAST_LIVE changes only in a cycle that dispatches an opcode in 10..14; a
reset is no such step. -/
def Obligations.ActiveRisesOnlyOnLiveCycle : Prop :=
  ∀ s t : State, s.phase = .run → step s = .next t → ¬ resets s →
    ((s.active = false ∧ t.active = true) ∨ t.lastLive ≠ s.lastLive) →
    runsCycle s ∧ ∃ f rest, takeFrame s.cfg.literals s.rxq = some (f, rest) ∧ 10 ≤ f.op.toNat ∧ f.op.toNat ≤ 14

/-- R174: a cycle that dispatches an opcode in 10..14 ends with ACTIVE = 1 and LAST_LIVE the sampled TIME. -/
def Obligations.LiveCycleRefreshesAtOnce : Prop :=
  ∀ (s : State) (f : Frame) (rest : List Byte), runsCycle s → takeFrame s.cfg.literals s.rxq = some (f, rest) →
    10 ≤ f.op.toNat → f.op.toNat ≤ 14 →
    ∃ t, step s = .next t ∧ t.active = true ∧ t.lastLive = s.time ∧ t.time = s.time

/-- R175: with every gap between cycles at most 2^TIME_W - THRESH, and no live frame queued, ACTIVE falls in the
first cycle whose true time since the last live cycle, or since reset, is at least THRESH, and in no earlier
one. `d` is the true time already passed when the schedule starts, all of it part of the first gap: 0 just
after a live cycle, BOOT_TICKS at main-loop entry. -/
def Obligations.ActiveFallsExactlyAtThreshold : Prop :=
  ∀ (s : State) (d g : Nat) (gaps : List Nat) (more : List Turn),
    s.phase = .run → s.active = true → NoLiveFrame s.cfg.literals s.rxq →
    s.lastLive < 2 ^ s.cfg.timeW → s.time = (s.lastLive + d) % 2 ^ s.cfg.timeW →
    s.turns = tickedCycles (g :: gaps) ++ more →
    d + g ≤ 2 ^ s.cfg.timeW - s.cfg.thresh → (∀ x ∈ gaps, x ≤ 2 ^ s.cfg.timeW - s.cfg.thresh) →
    ∃ t, core.run (tickedCycles (g :: gaps)).length s = .next t ∧ t.turns = more ∧
      (t.active = true ↔ d + (g :: gaps).sum < s.cfg.thresh)

/-- R177: with BOOT_TICKS at least THRESH, and below 2^TIME_W, a first RUN cycle right after main-loop entry
that dispatches no live frame clears ACTIVE at once. The bound 2^TIME_W is the premise R247 names; the rule
itself does not repeat it. -/
def Obligations.LongBootReportsInactive : Prop :=
  ∀ (s : State) (more : List Turn), s.phase = .boot → Inv s → s.bootElapsed = s.cfg.bootTicks →
    s.cfg.thresh ≤ s.cfg.bootTicks → s.cfg.bootTicks < 2 ^ s.cfg.timeW → s.turns = .cycle :: more →
    NoLiveFrame s.cfg.literals s.rxq →
    ∃ t, core.run 2 s = .next t ∧ t.phase = .run ∧ t.active = false ∧ t.lastLive = 0

/-! ### Frame accumulator, cycle and schedule (44_frame_reader.md) -/

/-- A step whose move is a cycle, on a queue that decodes to a command: the frame is latched and taken off the
queue, DISPATCHED is set, the command runs, and the watchdog follows (R191, R193). The move is the schedule's
head, or, at the schedule's end, the block's own, and then the next events are a free value (log 3). -/
def Obligations.StepRunsDecodedCommand : Prop :=
  ∀ (s : State) (f : Frame) (i : Instr) (rest : List Byte), runsCycle s →
    takeFrame s.cfg.literals s.rxq = some (f, rest) → decode s.cfg.literals s.rxq = .ok (i, rest) →
    step s = andThen
      (exec i { (nextMove s).2 with frame := f, rxq := rest, dispatched := true })
      fun t => .next (watchdog t)

/-- R193: a cycle with fewer than FRAME_LEN bytes queued clears DISPATCHED, HANDLED and LIVE, and the watchdog step
follows; a queue of FRAME_LEN or more is the statement StepRunsDecodedCommand. -/
def Obligations.CycleWithoutFrame : Prop :=
  ∀ s : State, runsCycle s → s.rxq.length < frameLen s.cfg.literals →
    step s = .next (watchdog
      { (nextMove s).2 with dispatched := false, handled := false, live := false })

/-- Which move a step makes (R198, R213, log 3): the head of the schedule, which is taken off it and changes nothing
else, but for main-loop entry, which comes before a cycle and a tick once it is due, and before nothing else (log 10);
at the schedule's end a cycle in RUN, and in BOOT the entry if it is due and a tick if not. -/
def Obligations.ScheduleDecidesMove : Prop :=
  ∀ s : State,
    (∀ m more, s.turns = m :: more → entryDue s = false ∨ (m ≠ .cycle ∧ m ≠ .event .tick) →
      nextMove s = (m, { s with turns := more })) ∧
    (∀ m more, s.turns = m :: more → entryDue s = true → m = .cycle ∨ m = .event .tick →
      nextMove s = (.enter, s)) ∧
    (s.turns = [] → s.phase = .run → moveOf s = .cycle) ∧
    (s.turns = [] → s.phase = .boot → entryDue s = false → moveOf s = .event .tick) ∧
    (s.turns = [] → s.phase = .boot → entryDue s = true → moveOf s = .enter) ∧
    (nextMove s).2 = { s with turns := (nextMove s).2.turns, draws := (nextMove s).2.draws }

/-- R190: a push appends to a queue with room; at a full queue DROP_NEW changes nothing and ANY_DROP loses one
byte, queued or arriving; in both phases. -/
def Obligations.PushAppendsOrDrops : Prop :=
  ∀ (s : State) (b : Byte) (more : List Turn), s.turns = .event (.rxPush b) :: more →
    ∃ t, step s = .next t ∧ t = { s with turns := more, rxq := t.rxq, draws := t.draws } ∧
      (s.rxq.length < rxqCap s.cfg → t.rxq = s.rxq ++ [b]) ∧
      (rxqCap s.cfg ≤ s.rxq.length → s.cfg.rxOverflow = .dropNew → t.rxq = s.rxq) ∧
      (rxqCap s.cfg ≤ s.rxq.length → s.cfg.rxOverflow = .anyDrop →
        ∃ j, j ≤ s.rxq.length ∧ t.rxq = (s.rxq ++ [b]).eraseIdx j)

/-- R191: the frame-reader step takes exactly the first FRAME_LEN bytes (9 under the source's literals) when they are
queued, and otherwise leaves RXQ and FRAME. -/
def Obligations.FrameReadTakesNine : Prop :=
  frameLen Config.sourceLiterals = 9 ∧
  ∀ (s : State) (n : Nat), n = frameLen s.cfg.literals →
    (n ≤ s.rxq.length → ∃ f : Frame, f.bytes = s.rxq.take n ∧
      frameRead s = { s with frame := f, rxq := s.rxq.drop n, dispatched := true }) ∧
    (s.rxq.length < n → frameRead s = { s with dispatched := false })

/-- R192: without pushes, of k cycles the first |RXQ| / n dispatch one frame of n = FRAME_LEN bytes each (9 under the
source's literals), in queue order, and later ones none; |RXQ| mod n bytes stay. -/
def Obligations.QueueDrainsFrameByFrame : Prop :=
  frameLen Config.sourceLiterals = 9 ∧
  ∀ (s : State) (n k : Nat) (more : List Turn), n = frameLen s.cfg.literals → s.phase = .run → 0 < k →
    s.turns = List.replicate k .cycle ++ more →
    ∃ t, core.run k s = .next t ∧
      t.rxq = s.rxq.drop (n * min k (s.rxq.length / n)) ∧
      (t.dispatched = true ↔ k ≤ s.rxq.length / n) ∧
      (k ≤ s.rxq.length / n → t.frame.bytes = (s.rxq.drop (n * (k - 1))).take n)

/-- R194: from an empty queue, through any steps without a reset or a transport reset, the k-th frame dispatched
is the accepted bytes from FRAME_LEN k on (9k..9k+8 under the source's literals), and the accepted bytes not yet dispatched are the queue (under DROP_NEW). -/
def Obligations.FramesAreCutsOfAcceptedBytes : Prop :=
  frameLen Config.sourceLiterals = 9 ∧
  ∀ (n : Nat) (s t : State), s.cfg.rxOverflow = .dropNew → s.rxq = [] → Avoids realigns n s →
    core.run n s = .next t →
    (∀ (k : Nat) (f : Frame), (history n s).2[k]? = some f →
      f.bytes = ((history n s).1.drop (frameLen s.cfg.literals * k)).take (frameLen s.cfg.literals)) ∧
    t.rxq = (history n s).1.drop (frameLen s.cfg.literals * (history n s).2.length)

/-- R196: a transport reset empties RXQ and touches nothing else. -/
def Obligations.FlushEmptiesQueueOnly : Prop :=
  ∀ (s : State) (more : List Turn), s.turns = .event .rxFlush :: more →
    step s = .next { s with turns := more, rxq := [] }

/-! ### Time, reset and boot (60_exceptions.md, 70_reset_and_hazards.md) -/

/-- R217: a tick in RUN adds one to TIME modulo 2^TIME_W and does nothing else; in BOOT it also counts towards
BOOT_TICKS and leaves all but the output registers (log 5). -/
def Obligations.TickCounts : Prop :=
  ∀ (s : State) (more : List Turn), s.turns = .event .tick :: more → entryDue s = false →
    ∃ t, step s = .next t ∧ t.time = (s.time + 1) % 2 ^ s.cfg.timeW ∧
      (s.phase = .run → t = { s with turns := more, time := t.time }) ∧
      (s.phase = .boot → t =
        { s with
          turns := more, time := t.time, bootElapsed := s.bootElapsed + 1
          chanRaw := t.chanRaw, ovf := t.ovf, active := t.active, draws := t.draws })

/-- R28, R217: TIME changes by ticks and resets alone. -/
def Obligations.TimeChangesOnlyByTickOrReset : Prop :=
  ∀ s t : State, step s = .next t →
    t.time = s.time ∨
    (moveOf s = .event .tick ∧ t.time = (s.time + 1) % 2 ^ s.cfg.timeW) ∨
    (resets s ∧ t.time = 0)

/-- R241, R213: what a reset sets and what it keeps; it pre-empts everything, a due main-loop entry too. -/
def Obligations.ResetSetsState : Prop :=
  ∀ (s : State) (more : List Turn), s.turns = .event .reset :: more →
    ∃ t, step s = .next t ∧ t.phase = .boot ∧ t.time = 0 ∧ t.lastLive = 0 ∧ t.rxq = [] ∧
      t.dispatched = false ∧ t.handled = false ∧ t.live = false ∧
      t.nvm = s.nvm ∧ (∀ a, memRead t a = memRead s a) ∧ t.tx = s.tx ∧ t.cfg = s.cfg

/-- R241, R53: the state right after power-on, in what the spec gives a reset value; storage reads NVM_INIT. -/
def Obligations.PowerOnState : Prop :=
  State.reset.phase = .boot ∧ State.reset.time = 0 ∧ State.reset.lastLive = 0 ∧ State.reset.rxq = [] ∧
  State.reset.dispatched = false ∧ State.reset.handled = false ∧ State.reset.live = false ∧
  ∀ a, a < nvmSize State.reset.cfg → memRead State.reset a = .next (nvmInit State.reset.cfg a)

/-- R243: main-loop entry sets the outputs, keeps the rest, and is the only way to RUN; TIME is then BOOT_TICKS mod
2^TIME_W and LAST_LIVE is 0. That it comes once BOOT_TICKS ticks are counted, at the latest before the next tick or
cycle, and after any push, transport reset or reset the schedule puts before it, is the model's choice (log 10); R243
says only that it occurs after BOOT_TICKS ticks. -/
def Obligations.MainLoopEntry : Prop :=
  ∀ s : State, s.phase = .boot → Inv s →
    (s.bootElapsed = s.cfg.bootTicks →
      (s.turns = [] ∨ (∃ m more, s.turns = m :: more ∧ (m = .enter ∨ m = .cycle ∨ m = .event .tick)) →
        moveOf s = .enter) ∧
      (moveOf s = .enter →
        step s = .next
          { (nextMove s).2 with
            chanRaw := ⟨0, 0, 0, 0, 0, List.replicate s.cfg.literals.chanExtra 0⟩
            ovf := ⟨false, false, false, List.replicate s.cfg.literals.ovfExtra false⟩
            active := s.cfg.activeInit, phase := .run } ∧
        s.time = s.cfg.bootTicks % 2 ^ s.cfg.timeW ∧ s.lastLive = 0)) ∧
    (s.bootElapsed ≠ s.cfg.bootTicks ∨ moveOf s ≠ .enter → ∀ t, step s = .next t → t.phase = .boot)

/-- R242: during BOOT no frame is dispatched, the watchdog does not run, and storage and TX are not touched. -/
def Obligations.BootRunsNoCycle : Prop :=
  ∀ s t : State, s.phase = .boot → step s = .next t → t.phase = .boot →
    dispatchedFrame s = [] ∧ t.nvm = s.nvm ∧ t.tx = s.tx ∧
    (¬ resets s → t.frame = s.frame ∧ t.lastLive = s.lastLive ∧ t.dispatched = s.dispatched ∧
      t.handled = s.handled ∧ t.live = s.live)

/-- R33: PHASE goes to RUN only by main-loop entry and to BOOT only by a reset, and a reset always takes it
there. The last clause, that a cycle scheduled in BOOT is taken off the schedule and changes nothing else, is the
model's choice (log 11), over the model's own schedule (log 3); R33 says only that cycles occur in RUN. -/
def Obligations.PhaseChangesOnlyByEntryAndReset : Prop :=
  ∀ s t : State, step s = .next t →
    (resets s → t.phase = .boot) ∧
    (s.phase = .run → t.phase = .boot → resets s) ∧
    (s.phase = .boot → t.phase = .run → moveOf s = .enter ∧ t = enterMainLoop (nextMove s).2) ∧
    (s.phase = .boot → moveOf s = .cycle → t = (nextMove s).2)

/-! ### The whole machine -/

/-- R7: no step changes a parameter. -/
def Obligations.ParametersConstant : Prop :=
  ∀ s t : State, step s = .next t → t.cfg = s.cfg

/-- R31, R58, R62: TX only grows, at its end, and only in a cycle that dispatches opcode 0 or 1. -/
def Obligations.ResponseStreamOnlyGrows : Prop :=
  ∀ s t : State, step s = .next t → ∃ bs, t.tx = s.tx ++ bs ∧
    (bs ≠ [] → runsCycle s ∧ ∃ f rest, takeFrame s.cfg.literals s.rxq = some (f, rest) ∧ (f.op = 0#8 ∨ f.op = 1#8))

/-- R23, R25: in RUN, and until a reset, a channel level and an overflow bit change only in a cycle that
dispatches the channel's own opcode, 10..14 in the order of R24. -/
def Obligations.OutputsHoldBetweenCommands : Prop :=
  ∀ s t : State, s.phase = .run → step s = .next t → ¬ resets s →
    (t.chanRaw.cpu ≠ s.chanRaw.cpu → runsCycle s ∧ ∃ f rest, takeFrame s.cfg.literals s.rxq = some (f, rest) ∧ f.op = 10#8) ∧
    (t.chanRaw.mem ≠ s.chanRaw.mem → runsCycle s ∧ ∃ f rest, takeFrame s.cfg.literals s.rxq = some (f, rest) ∧ f.op = 11#8) ∧
    (t.chanRaw.la1 ≠ s.chanRaw.la1 ∨ t.ovf.la1 ≠ s.ovf.la1 →
      runsCycle s ∧ ∃ f rest, takeFrame s.cfg.literals s.rxq = some (f, rest) ∧ f.op = 12#8) ∧
    (t.chanRaw.la5 ≠ s.chanRaw.la5 ∨ t.ovf.la5 ≠ s.ovf.la5 →
      runsCycle s ∧ ∃ f rest, takeFrame s.cfg.literals s.rxq = some (f, rest) ∧ f.op = 13#8) ∧
    (t.chanRaw.la15 ≠ s.chanRaw.la15 ∨ t.ovf.la15 ≠ s.ovf.la15 →
      runsCycle s ∧ ∃ f rest, takeFrame s.cfg.literals s.rxq = some (f, rest) ∧ f.op = 14#8) ∧
    t.chanRaw.more = s.chanRaw.more ∧ t.ovf.more = s.ovf.more

/-- R210: no state makes the machine stop: every step answers a next state. -/
def Obligations.NoStepStops : Prop :=
  ∀ s : State, ∃ t, step s = .next t

/-- The invariant of the machine is kept by every step. -/
def Obligations.StepKeepsInvariant : Prop :=
  ∀ s t : State, Inv s → step s = .next t → Inv t

/-- The invariant holds right after power-on. -/
def Obligations.PowerOnInvariant : Prop :=
  Inv State.reset

/-! ### The parameters (00_scope.md R6) -/

/-- R23, R100, R105: under the source's literals and the invariant, in RUN the percent channels hold 0..650, the load
average channels 0..255, an overflow bit stands over the level 255, and there are five channels and three bits. -/
def Obligations.SourceLiteralRanges : Prop :=
  ∀ s : State, s.cfg.literals = Config.sourceLiterals → Inv s → s.phase = .run →
    s.chanRaw.cpu ≤ 650 ∧ s.chanRaw.mem ≤ 650 ∧
    s.chanRaw.la1 ≤ 255 ∧ s.chanRaw.la5 ≤ 255 ∧ s.chanRaw.la15 ≤ 255 ∧
    (s.ovf.la1 = true → s.chanRaw.la1 = 255) ∧ (s.ovf.la5 = true → s.chanRaw.la5 = 255) ∧
    (s.ovf.la15 = true → s.chanRaw.la15 = 255) ∧
    s.chanRaw.more = [] ∧ s.ovf.more = []

/-- R6: the values the table gives, as the defaults of the named parameters: the literals, and the others in the launch
that State.reset stands for, which is the model's choice of a launch (log 2, log 14). -/
def Obligations.ParameterDefaults : Prop :=
  frameLen Config.sourceLiterals = 9 ∧ payloadLen Config.sourceLiterals = 8 ∧
  nChan Config.sourceLiterals = 5 ∧ nOvf Config.sourceLiterals = 3 ∧
  pctInMax Config.sourceLiterals = 100 ∧ Config.sourceLiterals.outMax = 255 ∧
  Config.sourceLiterals.laMax = 100 ∧ Config.sourceLiterals.rawW = 10 ∧
  State.reset.cfg.literals = Config.sourceLiterals ∧ State.reset.cfg.thresh = 5000 ∧
  State.reset.cfg.timeW = 32 ∧ State.reset.cfg.driveW = 8 ∧ State.reset.cfg.mapRound = .halfUp ∧
  State.reset.cfg.rxOverflow = .dropNew ∧ State.reset.cfg.lineEnd = [0x0D#8, 0x0A#8] ∧
  State.reset.cfg.idRender = .cstring ∧ State.reset.cfg.activeInit = true ∧
  9 ≤ rxqCap State.reset.cfg ∧ 8 ≤ nvmSize State.reset.cfg

/-- R6, R100, R104: the two mappings at any value of OUT_MAX, PCT_IN_MAX, LA_MAX and RAW_W. Which parameter stands for
which 100, and that a level too wide for RAW_W keeps its low bits, is the model's choice (log 14). -/
def Obligations.MapperByParameters : Prop :=
  ∀ (L : Config.Literals) (m : Config.RoundMode) (v : Byte),
    mapPercent L m v = roundDiv m (L.outMax * v.toNat) (pctInMax L) % 2 ^ L.rawW ∧
    (mapLoadAverage L m v).1 = roundDiv m (L.outMax * min v.toNat L.laMax) (pctInMax L) % 2 ^ L.rawW ∧
    ((mapLoadAverage L m v).2 = true ↔ L.laMax < v.toNat)

/-! ### The environment's events (60_exceptions.md R213) -/

/-- R213: in RUN, pushes, ticks and transport resets are taken one by one in the order the schedule (the model's own,
log 3) gives, whatever it is, and the block does nothing between them. -/
def Obligations.EventsInAnyOrder : Prop :=
  ∀ (s : State) (es : List Event) (more : List Turn), s.phase = .run → s.time < 2 ^ s.cfg.timeW →
    s.turns = es.map .event ++ more → (∀ e ∈ es, (∃ b, e = .rxPush b) ∨ e = .tick ∨ e = .rxFlush) →
    ∃ t, core.run es.length s = .next t ∧
      es.foldl (fun x e => andThen x (happen e)) (.next { s with turns := more }) = .next t ∧
      t.turns = more ∧ t.phase = .run ∧
      t.time = (s.time + es.count .tick) % 2 ^ s.cfg.timeW
end

