-- ==== Sys2Proof/Laws/Decode.lean ====
section
/-! SUPPORT. What cutting a frame off a byte sequence does (30_encoding.md R72), and what the decoder makes
of a frame (R75). -/

namespace Sys2Proof

theorem token_bytes_length (t : Token) : t.bytes.length = 8 := rfl

theorem frame_bytes_length (f : Frame) : f.bytes.length = 9 + f.more.length := by
  simp [Frame.bytes, token_bytes_length]; omega

/-- A frame has FRAME_LEN bytes exactly when its `more` has the length FRAME_LEN leaves. -/
theorem frame_bytes_length_iff {L : Config.Literals} {f : Frame} :
    f.bytes.length = frameLen L ↔ f.more.length = L.payloadExtra := by
  rw [frame_bytes_length, frameLen, payloadLen]; omega

/-- A frame with its `more` of the length FRAME_LEN leaves has FRAME_LEN bytes. -/
theorem frame_bytes_length_of {L : Config.Literals} {f : Frame} (h : f.more.length = L.payloadExtra) :
    f.bytes.length = frameLen L := frame_bytes_length_iff.2 h

variable {L : Config.Literals}

/-- A frame's bytes with more after them give back the frame and the rest. -/
theorem takeFrame_append {f : Frame} (h : f.more.length = L.payloadExtra) (rest : List Byte) :
    takeFrame L (f.bytes ++ rest) = some (f, rest) := by
  obtain ⟨op, ⟨t0, t1, t2, t3, t4, t5, t6, t7⟩, more⟩ := f
  simp only at h
  simp [Frame.bytes, Token.bytes, takeFrame, ← h]

/-- Cutting succeeds exactly where the sequence is a frame's FRAME_LEN bytes and the rest. -/
theorem takeFrame_eq_some {q rest : List Byte} {f : Frame} :
    takeFrame L q = some (f, rest) ↔ q = f.bytes ++ rest ∧ f.more.length = L.payloadExtra := by
  constructor
  · intro h
    unfold takeFrame at h
    split at h
    · split_ifs at h with hl
      cases h
      simp [Frame.bytes, Token.bytes, hl]
    · cases h
  · rintro ⟨rfl, h⟩
    exact takeFrame_append h rest

/-- Cutting fails exactly where fewer than FRAME_LEN bytes are there. -/
theorem takeFrame_eq_none {q : List Byte} : takeFrame L q = none ↔ q.length < frameLen L := by
  unfold frameLen payloadLen takeFrame
  split
  · split_ifs with h
    · simp; omega
    · simp; omega
  · rename_i hq
    simp only [true_iff]
    match q, hq with
    | [], _ | [_], _ | [_, _], _ | [_, _, _], _ | [_, _, _, _], _ | [_, _, _, _, _], _
    | [_, _, _, _, _, _], _ | [_, _, _, _, _, _, _], _ | [_, _, _, _, _, _, _, _], _ =>
      simp only [List.length_cons, List.length_nil]; omega
    | b0 :: b1 :: b2 :: b3 :: b4 :: b5 :: b6 :: b7 :: b8 :: rest, hq => exact (hq _ _ _ _ _ _ _ _ _ _ rfl).elim

/-- Where cutting succeeds, the frame is the first FRAME_LEN bytes and the rest is what follows them. -/
theorem takeFrame_spec {q rest : List Byte} {f : Frame} (h : takeFrame L q = some (f, rest)) :
    frameLen L ≤ q.length ∧ f.bytes = q.take (frameLen L) ∧ rest = q.drop (frameLen L) := by
  obtain ⟨rfl, hm⟩ := takeFrame_eq_some.1 h
  rw [← frame_bytes_length_of hm]
  simp

/-- A sequence of FRAME_LEN bytes or more starts with a frame. -/
theorem exists_takeFrame {q : List Byte} (h : frameLen L ≤ q.length) :
    ∃ f : Frame, takeFrame L q = some (f, q.drop (frameLen L)) ∧ f.bytes = q.take (frameLen L) := by
  cases hq : takeFrame L q with
  | none => rw [takeFrame_eq_none] at hq; omega
  | some p =>
    obtain ⟨f, rest⟩ := p
    obtain ⟨_, hb, rfl⟩ := takeFrame_spec hq
    exact ⟨f, rfl, hb⟩

/-- The opcode byte of a frame cut off a sequence is the sequence's first byte. -/
theorem head_of_takeFrame {q rest : List Byte} {f : Frame} (h : takeFrame L q = some (f, rest)) :
    q[0]? = some f.op := by
  obtain ⟨rfl, _⟩ := takeFrame_eq_some.1 h
  rfl

/-- The decoder answers the command of the frame at the head. -/
theorem decode_eq_ok {q rest : List Byte} {i : Instr} :
    decode L q = .ok (i, rest) ↔ ∃ f, takeFrame L q = some (f, rest) ∧ decodeFrame f = i := by
  unfold decode
  cases takeFrame L q with
  | none => simp
  | some p =>
    obtain ⟨f, r⟩ := p
    simp [and_comm]

/-- Every command's frame has FRAME_LEN bytes (R72, R79). -/
theorem encodeFrame_more (L : Config.Literals) (i : Instr) : (encodeFrame L i).more.length = L.payloadExtra := by
  cases i <;> exact List.length_replicate

theorem encode_length (L : Config.Literals) (i : Instr) : (encode L i).length = frameLen L :=
  frame_bytes_length_of (encodeFrame_more L i)

end Sys2Proof
end

