-- ==== Sys2Proof/Laws/Mapper.lean ====
section
/-! SUPPORT. The rescale is nondecreasing under every mode, and under the source's literals it lies within rounding of
2.55 x, so that 10 bits hold it for every byte (40_output_mapper.md R101, R102, R108). -/

namespace Sys2Proof.Machine

/-- HALF_EVEN answers the quotient or one more, by the remainder (R101). -/
theorem roundDiv_halfEven (n d : Nat) :
    (roundDiv .halfEven n d = n / d ∧ 2 * (n - n / d * d) ≤ d) ∨
    (roundDiv .halfEven n d = n / d + 1 ∧ d ≤ 2 * (n - n / d * d)) := by
  show ((if _ then _ else _ : Nat) = _ ∧ _) ∨ ((if _ then _ else _ : Nat) = _ ∧ _)
  by_cases h1 : 2 * (n - n / d * d) < d
  · exact .inl ⟨if_pos h1, by omega⟩
  · by_cases h2 : d < 2 * (n - n / d * d)
    · exact .inr ⟨by rw [if_neg h1, if_pos h2], by omega⟩
    · by_cases h3 : n / d % 2 = 0
      · exact .inl ⟨by rw [if_neg h1, if_neg h2, if_pos h3], by omega⟩
      · exact .inr ⟨by rw [if_neg h1, if_neg h2, if_neg h3], by omega⟩

/-- roundDiv is nondecreasing in its first argument under every mode (R101). -/
theorem roundDiv_mono (m : Config.RoundMode) (d : Nat) {n n' : Nat} (h : n ≤ n') : roundDiv m n d ≤ roundDiv m n' d := by
  cases m with
  | halfUp => exact Nat.div_le_div_right (by omega)
  | floor => exact Nat.div_le_div_right h
  | halfEven =>
    have hq : n / d ≤ n' / d := Nat.div_le_div_right h
    simp only [roundDiv]
    rcases Nat.eq_or_lt_of_le hq with e | e
    · rw [e] at *
      split_ifs <;> omega
    · split_ifs <;> omega

/-- The rescale is nondecreasing under every mode. -/
theorem rescale_mono (L : Config.Literals) (m : Config.RoundMode) {x y : Nat} (h : x ≤ y) :
    rescale L m x ≤ rescale L m y :=
  roundDiv_mono m _ (Nat.mul_le_mul_left _ h)

/-- Under the source's literals, in every rounding mode, 100 rescale(x) is at most 255 x + 50 and above
255 x - 100. -/
theorem rescale_bounds (m : Config.RoundMode) (x : Nat) :
    100 * rescale Config.sourceLiterals m x ≤ 255 * x + 50 ∧
      255 * x < 100 * rescale Config.sourceLiterals m x + 100 := by
  change 100 * roundDiv m (255 * x) 100 ≤ _ ∧ _ < 100 * roundDiv m (255 * x) 100 + 100
  cases m with
  | halfUp => simp only [roundDiv]; omega
  | floor => simp only [roundDiv]; omega
  | halfEven => rcases roundDiv_halfEven (255 * x) 100 with ⟨h, _⟩ | ⟨h, _⟩ <;> rw [h] <;> omega

/-- Under the source's literals the rescale of a byte value fits the level register. -/
theorem rescale_mod (m : Config.RoundMode) {x : Nat} (h : x ≤ 255) :
    rescale Config.sourceLiterals m x % 2 ^ Config.sourceLiterals.rawW = rescale Config.sourceLiterals m x := by
  have := rescale_bounds m x
  exact Nat.mod_eq_of_lt (show _ < 1024 by omega)

variable (L : Config.Literals) (m : Config.RoundMode) (v : Byte)

theorem mapPercent_lt : mapPercent L m v < 2 ^ L.rawW := Nat.mod_lt _ (Nat.two_pow_pos _)

theorem mapLoadAverage_lt : (mapLoadAverage L m v).1 < 2 ^ L.rawW := Nat.mod_lt _ (Nat.two_pow_pos _)

/-- The level of a percent byte is at most the rescale of 255. -/
theorem mapPercent_le : mapPercent L m v ≤ rescale L m 255 :=
  (Nat.mod_le _ _).trans (rescale_mono L m (by have := v.isLt; unfold operandValue; omega))

/-- The level of a load average byte is at most the rescale of LA_MAX. -/
theorem mapLoadAverage_le : (mapLoadAverage L m v).1 ≤ rescale L m L.laMax :=
  (Nat.mod_le _ _).trans (rescale_mono L m (Nat.min_le_right _ _))

variable {L m v}

/-- A load average byte that overflows has the level of LA_MAX. -/
theorem mapLoadAverage_of_overflow (h : (mapLoadAverage L m v).2 = true) :
    (mapLoadAverage L m v).1 = rescale L m L.laMax % 2 ^ L.rawW := by
  have hc : clampedLoad L v = L.laMax := Nat.min_eq_right (Nat.le_of_lt (of_decide_eq_true h))
  unfold mapLoadAverage
  rw [hc]

end Sys2Proof.Machine
end

