-- ==== Sys2Proof/Laws/Memory.lean ====
section
/-! SUPPORT. The laws of storage (20_memory.md R56, R60): a read after a write gives the byte written, a write
leaves every other byte, and every operation keeps the canonical form. -/

namespace Sys2Proof.Machine

namespace Memory

variable (cfg : Config.Params)

theorem erase_cons (c : Host.Cell) (m : List Host.Cell) (b : Nat) :
    erase (c :: m) b = if c.1 = b then erase m b else c :: erase m b := by
  by_cases h : c.1 = b <;> simp [erase, h]

theorem lookup_erase_same (m : List Host.Cell) (a : Nat) : lookup (erase m a) a = none := by
  induction m with
  | nil => rfl
  | cons c m ih =>
    rw [erase_cons]
    split_ifs with h
    · exact ih
    · simp [lookup, h, ih]

theorem lookup_erase_other (m : List Host.Cell) {a b : Nat} (h : b ≠ a) :
    lookup (erase m a) b = lookup m b := by
  induction m with
  | nil => rfl
  | cons c m ih =>
    obtain ⟨x, v⟩ := c
    rw [erase_cons]
    split_ifs with hx
    · have hx : x = a := hx
      simp [lookup, ih, hx, Ne.symm h]
    · simp [lookup, ih]

theorem lookup_insert_same (m : List Host.Cell) (a : Nat) (v : Byte) : lookup (insert m a v) a = some v := by
  induction m with
  | nil => simp [insert, lookup]
  | cons c m ih =>
    unfold insert
    split_ifs <;> simp_all [lookup]

theorem lookup_insert_other (m : List Host.Cell) {a b : Nat} (v : Byte) (h : b ≠ a) :
    lookup (insert m a v) b = lookup m b := by
  induction m with
  | nil => simp [insert, lookup, Ne.symm h]
  | cons c m ih =>
    unfold insert
    split_ifs <;> simp_all [lookup, Ne.symm h]

/-- A read after a write to the same address gives the byte written. -/
theorem read_write_same (m : List Host.Cell) (a : Nat) (v : Byte) : read cfg (write cfg m a v) a = v := by
  unfold read write
  split_ifs with h
  · simp [lookup_erase_same, h]
  · simp [lookup_insert_same]

/-- A write leaves the byte at every other address. -/
theorem read_write_other (m : List Host.Cell) {a b : Nat} (v : Byte) (h : b ≠ a) :
    read cfg (write cfg m a v) b = read cfg m b := by
  unfold read write
  split_ifs
  · rw [lookup_erase_other m h]
  · rw [lookup_insert_other m v h]

theorem risesAbove_mono {lo lo' : Nat} {m : List Host.Cell} (h : lo' ≤ lo) (hm : risesAbove lo m = true) :
    risesAbove lo' m = true := by
  cases m with
  | nil => rfl
  | cons c m =>
    simp only [risesAbove, Bool.and_eq_true, decide_eq_true_eq] at hm ⊢
    exact ⟨by omega, hm.2⟩

theorem risesAbove_erase {lo : Nat} {m : List Host.Cell} (b : Nat) (hm : risesAbove lo m = true) :
    risesAbove lo (erase m b) = true := by
  induction m generalizing lo with
  | nil => rfl
  | cons c m ih =>
    simp only [risesAbove, Bool.and_eq_true, decide_eq_true_eq] at hm
    rw [erase_cons]
    split_ifs with h
    · exact risesAbove_mono (Nat.le_of_lt hm.1) (ih hm.2)
    · simp [risesAbove, hm.1, ih hm.2]

theorem risesAbove_insert {lo b : Nat} {m : List Host.Cell} (w : Byte) (hb : lo < b)
    (hm : risesAbove lo m = true) : risesAbove lo (insert m b w) = true := by
  induction m generalizing lo with
  | nil => simp [insert, risesAbove, hb]
  | cons c m ih =>
    obtain ⟨a, v⟩ := c
    simp only [risesAbove, Bool.and_eq_true, decide_eq_true_eq] at hm
    unfold insert
    split_ifs with h1 h2
    · simp [risesAbove, hb, h1, hm.2]
    · subst h2; simp [risesAbove, hb, hm.2]
    · simp [risesAbove, hm.1, ih (by omega : a < b) hm.2]

theorem rises_of_risesAbove {lo : Nat} {m : List Host.Cell} (h : risesAbove lo m = true) : rises m = true := by
  cases m with
  | nil => rfl
  | cons c m =>
    simp only [risesAbove, Bool.and_eq_true] at h
    exact h.2

theorem rises_erase {m : List Host.Cell} (b : Nat) (hm : rises m = true) : rises (erase m b) = true := by
  cases m with
  | nil => rfl
  | cons c m =>
    have h := risesAbove_erase b hm
    rw [erase_cons]
    split_ifs
    · exact rises_of_risesAbove h
    · exact h

theorem rises_insert {m : List Host.Cell} (b : Nat) (w : Byte) (hm : rises m = true) :
    rises (insert m b w) = true := by
  cases m with
  | nil => rfl
  | cons c m =>
    obtain ⟨a, v⟩ := c
    unfold insert
    split_ifs with h1 h2
    · simp [rises, risesAbove, h1]; exact hm
    · subst h2; exact hm
    · exact risesAbove_insert w (by omega) hm

theorem mem_insert {m : List Host.Cell} {b : Nat} {w : Byte} {c : Host.Cell} (h : c ∈ insert m b w) :
    c = (b, w) ∨ c ∈ m := by
  induction m with
  | nil => simpa [insert] using h
  | cons d m ih =>
    unfold insert at h
    split_ifs at h with h1 h2
    · simpa using h
    · rcases List.mem_cons.1 h with h | h
      · exact .inl h
      · exact .inr (List.mem_cons_of_mem _ h)
    · rcases List.mem_cons.1 h with h | h
      · exact .inr (h ▸ List.mem_cons_self)
      · exact (ih h).imp_right (List.mem_cons_of_mem _)

/-- What the canonical form says, as propositions. -/
theorem wf_iff {m : List Host.Cell} :
    wf cfg m = true ↔ rises m = true ∧ ∀ c ∈ m, c.1 < nvmSize cfg ∧ c.2 ≠ nvmInit cfg c.1 := by
  simp [wf]

/-- A write at an address that exists keeps the canonical form. -/
theorem wf_write {m : List Host.Cell} {a : Nat} (v : Byte) (ha : a < nvmSize cfg)
    (hm : wf cfg m = true) : wf cfg (write cfg m a v) = true := by
  rw [wf_iff] at hm ⊢
  unfold write
  split_ifs with h
  · refine ⟨rises_erase a hm.1, fun c hc => hm.2 c ?_⟩
    exact List.mem_of_mem_filter hc
  · refine ⟨rises_insert a v hm.1, fun c hc => ?_⟩
    rcases mem_insert hc with rfl | hc
    · exact ⟨ha, h⟩
    · exact hm.2 c hc

/-- The empty list has the canonical form. -/
theorem wf_nil : wf cfg [] = true := rfl

end Memory

/-- Storage has at least 8 bytes (R6). -/
theorem eight_le_nvmSize (cfg : Config.Params) : 8 ≤ nvmSize cfg := by
  unfold nvmSize; omega

/-- A storage byte that exists reads as the byte listed, or as NVM_INIT. -/
theorem memRead_of_lt {s : State} {a : Nat} (h : a < nvmSize s.cfg) :
    memRead s a = .next (Memory.read s.cfg s.nvm a) := if_pos h

/-- A storage byte that exists can be written. -/
theorem memWrite_of_lt {s : State} {a : Nat} (v : Byte) (h : a < nvmSize s.cfg) :
    memWrite s a v = .next { s with nvm := Memory.write s.cfg s.nvm a v } := if_pos h

/-- Reading depends on the parameters and the storage list alone. -/
theorem memRead_congr {s t : State} (hc : t.cfg = s.cfg) (hn : t.nvm = s.nvm) (a : Nat) :
    memRead t a = memRead s a := by
  unfold memRead; rw [hc, hn]

/-- Bytes stored from address `a` on, all of which exist: the store completes, changes the storage list alone,
keeps its canonical form, leaves the bytes below `a` and from its end on, and puts byte k at address a + k. -/
theorem storeFrom_spec (bs : List Byte) (a : Nat) (s : State) (h : a + bs.length ≤ nvmSize s.cfg) :
    ∃ m, storeFrom a bs s = .next { s with nvm := m } ∧
      (Memory.wf s.cfg s.nvm = true → Memory.wf s.cfg m = true) ∧
      (∀ b, b < a ∨ a + bs.length ≤ b → Memory.read s.cfg m b = Memory.read s.cfg s.nvm b) ∧
      (∀ (k : Nat) (v : Byte), bs[k]? = some v → Memory.read s.cfg m (a + k) = v) := by
  induction bs generalizing a s with
  | nil => exact ⟨s.nvm, rfl, id, fun _ _ => rfl, by simp⟩
  | cons v bs ih =>
    have ha : a < nvmSize s.cfg := by simp at h; omega
    obtain ⟨m, hm, hwf, hother, hsame⟩ :=
      ih (a + 1) { s with nvm := Memory.write s.cfg s.nvm a v } (by simp at h ⊢; omega)
    refine ⟨m, by simp [storeFrom, memWrite_of_lt v ha, andThen, hm],
      fun hw => hwf (Memory.wf_write _ v ha hw), fun b hb => ?_, fun k w hk => ?_⟩
    · simp at hb
      rw [hother b (by omega)]
      exact Memory.read_write_other _ _ v (by omega)
    · cases k with
      | zero =>
        simp at hk
        subst hk
        rw [show a + 0 = a from rfl, hother a (by omega)]
        exact Memory.read_write_same _ _ _ _
      | succ k => simpa [Nat.add_assoc, Nat.add_comm 1 k] using hsame k w (by simpa using hk)

/-- Bytes loaded from address `a` on, all of which exist: the load completes and reads each address in order. -/
theorem loadFrom_spec (n a : Nat) (s : State) (h : a + n ≤ nvmSize s.cfg) :
    loadFrom s a n = .next ((List.range' a n).map (Memory.read s.cfg s.nvm)) := by
  induction n generalizing a with
  | zero => rfl
  | succ n ih =>
    simp [loadFrom, memRead_of_lt (show a < nvmSize s.cfg by omega), andThen,
      ih (a + 1) (by omega), List.range'_succ]

end Sys2Proof.Machine
end

