-- ==== Sys2Proof/Laws/PerInstr.lean ====
section
/-! SUPPORT. Per-instruction laws. -/

/-! FrameForm: every command assembles to one frame of FRAME_LEN bytes, whose opcode byte is unassigned exactly for
the well-formed NOPs (30_encoding.md R72, R76, R79). -/

namespace Sys2Proof.Laws.FrameForm

/-- One frame of FRAME_LEN bytes; a well-formed command that is no NOP has an assigned opcode. -/
def Statement (i : Instr) : Prop :=
  ∀ L : Config.Literals, (encode L i).length = frameLen L ∧
    (i.wf = true → (unassigned (encodeFrame L i).op = true ↔ ∃ op, i = .nop op))

theorem getname : Statement .getname := fun L => ⟨encode_length L _, fun _ => by simp [encodeFrame, frameOf, unassigned]⟩
theorem getid : Statement (.getid) := fun L => ⟨encode_length L _, fun _ => by simp [encodeFrame, frameOf, unassigned]⟩
theorem setid (t : Token) : Statement (.setid t) := fun L => ⟨encode_length L _, fun _ => by simp [encodeFrame, frameOf, unassigned]⟩
theorem cpu (v : Byte) : Statement (.cpu v) := fun L => ⟨encode_length L _, fun _ => by simp [encodeFrame, frameOf, unassigned]⟩
theorem mem (v : Byte) : Statement (.mem v) := fun L => ⟨encode_length L _, fun _ => by simp [encodeFrame, frameOf, unassigned]⟩
theorem la1 (v : Byte) : Statement (.la1 v) := fun L => ⟨encode_length L _, fun _ => by simp [encodeFrame, frameOf, unassigned]⟩
theorem la5 (v : Byte) : Statement (.la5 v) := fun L => ⟨encode_length L _, fun _ => by simp [encodeFrame, frameOf, unassigned]⟩
theorem la15 (v : Byte) : Statement (.la15 v) := fun L => ⟨encode_length L _, fun _ => by simp [encodeFrame, frameOf, unassigned]⟩
theorem nop (op : Byte) : Statement (.nop op) := fun L => ⟨encode_length L _, fun h => ⟨fun _ => ⟨op, rfl⟩, fun _ => h⟩⟩

end Sys2Proof.Laws.FrameForm
end

