-- ==== Sys2Proof/Laws/State.lean ====
section
/-! SUPPORT. One lemma per field of State per update: what the update leaves and what it sets. -/

namespace Sys2Proof.Machine

variable (s : State)

/-! `report` (R140) -/

@[simp] theorem report_cfg (h l : Bool) : (report h l s).cfg = s.cfg := rfl
@[simp] theorem report_phase (h l : Bool) : (report h l s).phase = s.phase := rfl
@[simp] theorem report_rxq (h l : Bool) : (report h l s).rxq = s.rxq := rfl
@[simp] theorem report_frame (h l : Bool) : (report h l s).frame = s.frame := rfl
@[simp] theorem report_chanRaw (h l : Bool) : (report h l s).chanRaw = s.chanRaw := rfl
@[simp] theorem report_ovf (h l : Bool) : (report h l s).ovf = s.ovf := rfl
@[simp] theorem report_active (h l : Bool) : (report h l s).active = s.active := rfl
@[simp] theorem report_lastLive (h l : Bool) : (report h l s).lastLive = s.lastLive := rfl
@[simp] theorem report_time (h l : Bool) : (report h l s).time = s.time := rfl
@[simp] theorem report_dispatched (h l : Bool) : (report h l s).dispatched = s.dispatched := rfl
@[simp] theorem report_handled (h l : Bool) : (report h l s).handled = h := rfl
@[simp] theorem report_live (h l : Bool) : (report h l s).live = l := rfl
@[simp] theorem report_nvm (h l : Bool) : (report h l s).nvm = s.nvm := rfl
@[simp] theorem report_tx (h l : Bool) : (report h l s).tx = s.tx := rfl
@[simp] theorem report_bootElapsed (h l : Bool) : (report h l s).bootElapsed = s.bootElapsed := rfl
@[simp] theorem report_turns (h l : Bool) : (report h l s).turns = s.turns := rfl
@[simp] theorem report_draws (h l : Bool) : (report h l s).draws = s.draws := rfl

/-! `emit` (R62) -/

@[simp] theorem emit_cfg (bs : List Byte) : (emit bs s).cfg = s.cfg := rfl
@[simp] theorem emit_phase (bs : List Byte) : (emit bs s).phase = s.phase := rfl
@[simp] theorem emit_rxq (bs : List Byte) : (emit bs s).rxq = s.rxq := rfl
@[simp] theorem emit_frame (bs : List Byte) : (emit bs s).frame = s.frame := rfl
@[simp] theorem emit_chanRaw (bs : List Byte) : (emit bs s).chanRaw = s.chanRaw := rfl
@[simp] theorem emit_ovf (bs : List Byte) : (emit bs s).ovf = s.ovf := rfl
@[simp] theorem emit_active (bs : List Byte) : (emit bs s).active = s.active := rfl
@[simp] theorem emit_lastLive (bs : List Byte) : (emit bs s).lastLive = s.lastLive := rfl
@[simp] theorem emit_time (bs : List Byte) : (emit bs s).time = s.time := rfl
@[simp] theorem emit_dispatched (bs : List Byte) : (emit bs s).dispatched = s.dispatched := rfl
@[simp] theorem emit_handled (bs : List Byte) : (emit bs s).handled = s.handled := rfl
@[simp] theorem emit_live (bs : List Byte) : (emit bs s).live = s.live := rfl
@[simp] theorem emit_nvm (bs : List Byte) : (emit bs s).nvm = s.nvm := rfl
@[simp] theorem emit_tx (bs : List Byte) : (emit bs s).tx = s.tx ++ bs := rfl
@[simp] theorem emit_bootElapsed (bs : List Byte) : (emit bs s).bootElapsed = s.bootElapsed := rfl
@[simp] theorem emit_turns (bs : List Byte) : (emit bs s).turns = s.turns := rfl
@[simp] theorem emit_draws (bs : List Byte) : (emit bs s).draws = s.draws := rfl

/-! `setLevel` (R23) -/

@[simp] theorem setLevel_cfg (c : Channel) (l : Nat) : (setLevel c l s).cfg = s.cfg := rfl
@[simp] theorem setLevel_phase (c : Channel) (l : Nat) : (setLevel c l s).phase = s.phase := rfl
@[simp] theorem setLevel_rxq (c : Channel) (l : Nat) : (setLevel c l s).rxq = s.rxq := rfl
@[simp] theorem setLevel_frame (c : Channel) (l : Nat) : (setLevel c l s).frame = s.frame := rfl
@[simp] theorem setLevel_chanRaw (c : Channel) (l : Nat) : (setLevel c l s).chanRaw = Channels.withLevel s.chanRaw c l := rfl
@[simp] theorem setLevel_ovf (c : Channel) (l : Nat) : (setLevel c l s).ovf = s.ovf := rfl
@[simp] theorem setLevel_active (c : Channel) (l : Nat) : (setLevel c l s).active = s.active := rfl
@[simp] theorem setLevel_lastLive (c : Channel) (l : Nat) : (setLevel c l s).lastLive = s.lastLive := rfl
@[simp] theorem setLevel_time (c : Channel) (l : Nat) : (setLevel c l s).time = s.time := rfl
@[simp] theorem setLevel_dispatched (c : Channel) (l : Nat) : (setLevel c l s).dispatched = s.dispatched := rfl
@[simp] theorem setLevel_handled (c : Channel) (l : Nat) : (setLevel c l s).handled = s.handled := rfl
@[simp] theorem setLevel_live (c : Channel) (l : Nat) : (setLevel c l s).live = s.live := rfl
@[simp] theorem setLevel_nvm (c : Channel) (l : Nat) : (setLevel c l s).nvm = s.nvm := rfl
@[simp] theorem setLevel_tx (c : Channel) (l : Nat) : (setLevel c l s).tx = s.tx := rfl
@[simp] theorem setLevel_bootElapsed (c : Channel) (l : Nat) : (setLevel c l s).bootElapsed = s.bootElapsed := rfl
@[simp] theorem setLevel_turns (c : Channel) (l : Nat) : (setLevel c l s).turns = s.turns := rfl
@[simp] theorem setLevel_draws (c : Channel) (l : Nat) : (setLevel c l s).draws = s.draws := rfl

/-! `setOvf` (R25) -/

@[simp] theorem setOvf_cfg (c : LoadChannel) (b : Bool) : (setOvf c b s).cfg = s.cfg := rfl
@[simp] theorem setOvf_phase (c : LoadChannel) (b : Bool) : (setOvf c b s).phase = s.phase := rfl
@[simp] theorem setOvf_rxq (c : LoadChannel) (b : Bool) : (setOvf c b s).rxq = s.rxq := rfl
@[simp] theorem setOvf_frame (c : LoadChannel) (b : Bool) : (setOvf c b s).frame = s.frame := rfl
@[simp] theorem setOvf_chanRaw (c : LoadChannel) (b : Bool) : (setOvf c b s).chanRaw = s.chanRaw := rfl
@[simp] theorem setOvf_ovf (c : LoadChannel) (b : Bool) : (setOvf c b s).ovf = Overflows.withBit s.ovf c b := rfl
@[simp] theorem setOvf_active (c : LoadChannel) (b : Bool) : (setOvf c b s).active = s.active := rfl
@[simp] theorem setOvf_lastLive (c : LoadChannel) (b : Bool) : (setOvf c b s).lastLive = s.lastLive := rfl
@[simp] theorem setOvf_time (c : LoadChannel) (b : Bool) : (setOvf c b s).time = s.time := rfl
@[simp] theorem setOvf_dispatched (c : LoadChannel) (b : Bool) : (setOvf c b s).dispatched = s.dispatched := rfl
@[simp] theorem setOvf_handled (c : LoadChannel) (b : Bool) : (setOvf c b s).handled = s.handled := rfl
@[simp] theorem setOvf_live (c : LoadChannel) (b : Bool) : (setOvf c b s).live = s.live := rfl
@[simp] theorem setOvf_nvm (c : LoadChannel) (b : Bool) : (setOvf c b s).nvm = s.nvm := rfl
@[simp] theorem setOvf_tx (c : LoadChannel) (b : Bool) : (setOvf c b s).tx = s.tx := rfl
@[simp] theorem setOvf_bootElapsed (c : LoadChannel) (b : Bool) : (setOvf c b s).bootElapsed = s.bootElapsed := rfl
@[simp] theorem setOvf_turns (c : LoadChannel) (b : Bool) : (setOvf c b s).turns = s.turns := rfl
@[simp] theorem setOvf_draws (c : LoadChannel) (b : Bool) : (setOvf c b s).draws = s.draws := rfl

/-! `rxFlush` (R196) -/

@[simp] theorem rxFlush_cfg : (rxFlush s).cfg = s.cfg := rfl
@[simp] theorem rxFlush_phase : (rxFlush s).phase = s.phase := rfl
@[simp] theorem rxFlush_rxq : (rxFlush s).rxq = [] := rfl
@[simp] theorem rxFlush_frame : (rxFlush s).frame = s.frame := rfl
@[simp] theorem rxFlush_chanRaw : (rxFlush s).chanRaw = s.chanRaw := rfl
@[simp] theorem rxFlush_ovf : (rxFlush s).ovf = s.ovf := rfl
@[simp] theorem rxFlush_active : (rxFlush s).active = s.active := rfl
@[simp] theorem rxFlush_lastLive : (rxFlush s).lastLive = s.lastLive := rfl
@[simp] theorem rxFlush_time : (rxFlush s).time = s.time := rfl
@[simp] theorem rxFlush_dispatched : (rxFlush s).dispatched = s.dispatched := rfl
@[simp] theorem rxFlush_handled : (rxFlush s).handled = s.handled := rfl
@[simp] theorem rxFlush_live : (rxFlush s).live = s.live := rfl
@[simp] theorem rxFlush_nvm : (rxFlush s).nvm = s.nvm := rfl
@[simp] theorem rxFlush_tx : (rxFlush s).tx = s.tx := rfl
@[simp] theorem rxFlush_bootElapsed : (rxFlush s).bootElapsed = s.bootElapsed := rfl
@[simp] theorem rxFlush_turns : (rxFlush s).turns = s.turns := rfl
@[simp] theorem rxFlush_draws : (rxFlush s).draws = s.draws := rfl

/-! `bootOutputs` (R242) -/

@[simp] theorem bootOutputs_cfg : (bootOutputs s).cfg = s.cfg := rfl
@[simp] theorem bootOutputs_phase : (bootOutputs s).phase = s.phase := rfl
@[simp] theorem bootOutputs_rxq : (bootOutputs s).rxq = s.rxq := rfl
@[simp] theorem bootOutputs_frame : (bootOutputs s).frame = s.frame := rfl
@[simp] theorem bootOutputs_chanRaw : (bootOutputs s).chanRaw = fitChannels s.cfg.literals (Config.freeChannels s.draws) := rfl
@[simp] theorem bootOutputs_ovf : (bootOutputs s).ovf = fitOvf s.cfg.literals (Config.freeOvf s.draws) := rfl
@[simp] theorem bootOutputs_active : (bootOutputs s).active = Config.freeActive s.draws := rfl
@[simp] theorem bootOutputs_lastLive : (bootOutputs s).lastLive = s.lastLive := rfl
@[simp] theorem bootOutputs_time : (bootOutputs s).time = s.time := rfl
@[simp] theorem bootOutputs_dispatched : (bootOutputs s).dispatched = s.dispatched := rfl
@[simp] theorem bootOutputs_handled : (bootOutputs s).handled = s.handled := rfl
@[simp] theorem bootOutputs_live : (bootOutputs s).live = s.live := rfl
@[simp] theorem bootOutputs_nvm : (bootOutputs s).nvm = s.nvm := rfl
@[simp] theorem bootOutputs_tx : (bootOutputs s).tx = s.tx := rfl
@[simp] theorem bootOutputs_bootElapsed : (bootOutputs s).bootElapsed = s.bootElapsed := rfl
@[simp] theorem bootOutputs_turns : (bootOutputs s).turns = s.turns := rfl
@[simp] theorem bootOutputs_draws : (bootOutputs s).draws = s.draws + 1 := rfl

/-! `blockReset` (R241) -/

@[simp] theorem blockReset_cfg : (blockReset s).cfg = s.cfg := rfl
@[simp] theorem blockReset_phase : (blockReset s).phase = .boot := rfl
@[simp] theorem blockReset_rxq : (blockReset s).rxq = [] := rfl
@[simp] theorem blockReset_frame : (blockReset s).frame = fitFrame s.cfg.literals (Config.freeFrame s.draws) := rfl
@[simp] theorem blockReset_chanRaw : (blockReset s).chanRaw = fitChannels s.cfg.literals (Config.freeChannels s.draws) := rfl
@[simp] theorem blockReset_ovf : (blockReset s).ovf = fitOvf s.cfg.literals (Config.freeOvf s.draws) := rfl
@[simp] theorem blockReset_active : (blockReset s).active = Config.freeActive s.draws := rfl
@[simp] theorem blockReset_lastLive : (blockReset s).lastLive = 0 := rfl
@[simp] theorem blockReset_time : (blockReset s).time = 0 := rfl
@[simp] theorem blockReset_dispatched : (blockReset s).dispatched = false := rfl
@[simp] theorem blockReset_handled : (blockReset s).handled = false := rfl
@[simp] theorem blockReset_live : (blockReset s).live = false := rfl
@[simp] theorem blockReset_nvm : (blockReset s).nvm = s.nvm := rfl
@[simp] theorem blockReset_tx : (blockReset s).tx = s.tx := rfl
@[simp] theorem blockReset_bootElapsed : (blockReset s).bootElapsed = 0 := rfl
@[simp] theorem blockReset_turns : (blockReset s).turns = s.turns := rfl
@[simp] theorem blockReset_draws : (blockReset s).draws = s.draws + 1 := rfl

/-! `enterMainLoop` (R243) -/

@[simp] theorem enterMainLoop_cfg : (enterMainLoop s).cfg = s.cfg := rfl
@[simp] theorem enterMainLoop_phase : (enterMainLoop s).phase = .run := rfl
@[simp] theorem enterMainLoop_rxq : (enterMainLoop s).rxq = s.rxq := rfl
@[simp] theorem enterMainLoop_frame : (enterMainLoop s).frame = s.frame := rfl
@[simp] theorem enterMainLoop_chanRaw : (enterMainLoop s).chanRaw = ⟨0, 0, 0, 0, 0, List.replicate s.cfg.literals.chanExtra 0⟩ := rfl
@[simp] theorem enterMainLoop_ovf : (enterMainLoop s).ovf = ⟨false, false, false, List.replicate s.cfg.literals.ovfExtra false⟩ := rfl
@[simp] theorem enterMainLoop_active : (enterMainLoop s).active = s.cfg.activeInit := rfl
@[simp] theorem enterMainLoop_lastLive : (enterMainLoop s).lastLive = s.lastLive := rfl
@[simp] theorem enterMainLoop_time : (enterMainLoop s).time = s.time := rfl
@[simp] theorem enterMainLoop_dispatched : (enterMainLoop s).dispatched = s.dispatched := rfl
@[simp] theorem enterMainLoop_handled : (enterMainLoop s).handled = s.handled := rfl
@[simp] theorem enterMainLoop_live : (enterMainLoop s).live = s.live := rfl
@[simp] theorem enterMainLoop_nvm : (enterMainLoop s).nvm = s.nvm := rfl
@[simp] theorem enterMainLoop_tx : (enterMainLoop s).tx = s.tx := rfl
@[simp] theorem enterMainLoop_bootElapsed : (enterMainLoop s).bootElapsed = s.bootElapsed := rfl
@[simp] theorem enterMainLoop_turns : (enterMainLoop s).turns = s.turns := rfl
@[simp] theorem enterMainLoop_draws : (enterMainLoop s).draws = s.draws := rfl

/-! Free lists cut to length -/

theorem fit_length {α : Type} (n : Nat) (d : α) (l : List α) : (fit n d l).length = n := by
  simp [fit]

/-- There are N_CHAN levels exactly when `more` has the length N_CHAN leaves. -/
theorem levels_length_iff {L : Config.Literals} {c : Channels} :
    (Channels.levels c).length = nChan L ↔ c.more.length = L.chanExtra := by
  simp [Channels.levels, nChan]

/-- There are N_OVF bits exactly when `more` has the length N_OVF leaves. -/
theorem bits_length_iff {L : Config.Literals} {o : Overflows} :
    (Overflows.bits o).length = nOvf L ↔ o.more.length = L.ovfExtra := by
  simp [Overflows.bits, nOvf]

@[simp] theorem fitChannels_more_length (L : Config.Literals) (c : Channels) :
    (fitChannels L c).more.length = L.chanExtra := by simp [fitChannels, fit_length]
@[simp] theorem fitOvf_more_length (L : Config.Literals) (o : Overflows) :
    (fitOvf L o).more.length = L.ovfExtra := fit_length ..
@[simp] theorem fitFrame_more_length (L : Config.Literals) (f : Frame) :
    (fitFrame L f).more.length = L.payloadExtra := fit_length ..

/-- Every level of a fitted channel file is a RAW_W-bit number. -/
theorem fitChannels_levels (L : Config.Literals) (c : Channels) :
    ∀ l ∈ Channels.levels (fitChannels L c), l < 2 ^ L.rawW := by
  have h : ∀ x, x % 2 ^ L.rawW < 2 ^ L.rawW := fun x => Nat.mod_lt x (Nat.two_pow_pos _)
  simp only [Channels.levels, fitChannels, List.mem_append, List.mem_cons, List.not_mem_nil, or_false, List.mem_map]
  rintro l ((rfl | rfl | rfl | rfl | rfl) | ⟨x, _, rfl⟩) <;> exact h _

end Sys2Proof.Machine
end

