-- ==== Sys2Proof/Laws/Step.lean ====
section
/-! SUPPORT. What each shared operation and each step can do, said once: field lemmas of the frame-reader step,
the watchdog step and the schedule, and one inversion lemma each for a command, a cycle, a torn write and a
step. -/

namespace Sys2Proof.Machine

variable (s : State)

/-! The schedule (R198). -/

@[simp] theorem nextTurn_cfg : (nextTurn s).2.cfg = s.cfg := by unfold nextTurn; split <;> rfl
@[simp] theorem nextTurn_phase : (nextTurn s).2.phase = s.phase := by unfold nextTurn; split <;> rfl
@[simp] theorem nextTurn_rxq : (nextTurn s).2.rxq = s.rxq := by unfold nextTurn; split <;> rfl
@[simp] theorem nextTurn_frame : (nextTurn s).2.frame = s.frame := by unfold nextTurn; split <;> rfl
@[simp] theorem nextTurn_chanRaw : (nextTurn s).2.chanRaw = s.chanRaw := by unfold nextTurn; split <;> rfl
@[simp] theorem nextTurn_ovf : (nextTurn s).2.ovf = s.ovf := by unfold nextTurn; split <;> rfl
@[simp] theorem nextTurn_active : (nextTurn s).2.active = s.active := by unfold nextTurn; split <;> rfl
@[simp] theorem nextTurn_lastLive : (nextTurn s).2.lastLive = s.lastLive := by unfold nextTurn; split <;> rfl
@[simp] theorem nextTurn_time : (nextTurn s).2.time = s.time := by unfold nextTurn; split <;> rfl
@[simp] theorem nextTurn_dispatched : (nextTurn s).2.dispatched = s.dispatched := by unfold nextTurn; split <;> rfl
@[simp] theorem nextTurn_handled : (nextTurn s).2.handled = s.handled := by unfold nextTurn; split <;> rfl
@[simp] theorem nextTurn_live : (nextTurn s).2.live = s.live := by unfold nextTurn; split <;> rfl
@[simp] theorem nextTurn_nvm : (nextTurn s).2.nvm = s.nvm := by unfold nextTurn; split <;> rfl
@[simp] theorem nextTurn_tx : (nextTurn s).2.tx = s.tx := by unfold nextTurn; split <;> rfl
@[simp] theorem nextTurn_bootElapsed : (nextTurn s).2.bootElapsed = s.bootElapsed := by unfold nextTurn; split <;> rfl

@[simp] theorem nextMove_cfg : (nextMove s).2.cfg = s.cfg := by unfold nextMove; split_ifs <;> simp
@[simp] theorem nextMove_phase : (nextMove s).2.phase = s.phase := by unfold nextMove; split_ifs <;> simp
@[simp] theorem nextMove_rxq : (nextMove s).2.rxq = s.rxq := by unfold nextMove; split_ifs <;> simp
@[simp] theorem nextMove_frame : (nextMove s).2.frame = s.frame := by unfold nextMove; split_ifs <;> simp
@[simp] theorem nextMove_chanRaw : (nextMove s).2.chanRaw = s.chanRaw := by unfold nextMove; split_ifs <;> simp
@[simp] theorem nextMove_ovf : (nextMove s).2.ovf = s.ovf := by unfold nextMove; split_ifs <;> simp
@[simp] theorem nextMove_active : (nextMove s).2.active = s.active := by unfold nextMove; split_ifs <;> simp
@[simp] theorem nextMove_lastLive : (nextMove s).2.lastLive = s.lastLive := by unfold nextMove; split_ifs <;> simp
@[simp] theorem nextMove_time : (nextMove s).2.time = s.time := by unfold nextMove; split_ifs <;> simp
@[simp] theorem nextMove_dispatched : (nextMove s).2.dispatched = s.dispatched := by unfold nextMove; split_ifs <;> simp
@[simp] theorem nextMove_handled : (nextMove s).2.handled = s.handled := by unfold nextMove; split_ifs <;> simp
@[simp] theorem nextMove_live : (nextMove s).2.live = s.live := by unfold nextMove; split_ifs <;> simp
@[simp] theorem nextMove_nvm : (nextMove s).2.nvm = s.nvm := by unfold nextMove; split_ifs <;> simp
@[simp] theorem nextMove_tx : (nextMove s).2.tx = s.tx := by unfold nextMove; split_ifs <;> simp
@[simp] theorem nextMove_bootElapsed : (nextMove s).2.bootElapsed = s.bootElapsed := by unfold nextMove; split_ifs <;> simp

@[simp] theorem nextMove_entryDue : entryDue (nextMove s).2 = entryDue s := by simp [entryDue]

/-- Until main-loop entry is due the next move is the next turn. -/
theorem nextMove_of_not_due (h : entryDue s = false) : nextMove s = nextTurn s := by
  simp [nextMove, h]

/-- A tick and a cycle are moves only where main-loop entry is not due. -/
theorem not_due_of_afterEntry (h : afterEntry (nextMove s).1 = true) : entryDue s = false := by
  unfold nextMove at h
  split_ifs at h with hc
  · cases h
  · simpa [h] using hc

/-! The watchdog step writes ACTIVE and LAST_LIVE only (R170). -/

@[simp] theorem watchdog_cfg : (watchdog s).cfg = s.cfg := by unfold watchdog; split_ifs <;> rfl
@[simp] theorem watchdog_phase : (watchdog s).phase = s.phase := by unfold watchdog; split_ifs <;> rfl
@[simp] theorem watchdog_rxq : (watchdog s).rxq = s.rxq := by unfold watchdog; split_ifs <;> rfl
@[simp] theorem watchdog_frame : (watchdog s).frame = s.frame := by unfold watchdog; split_ifs <;> rfl
@[simp] theorem watchdog_chanRaw : (watchdog s).chanRaw = s.chanRaw := by unfold watchdog; split_ifs <;> rfl
@[simp] theorem watchdog_ovf : (watchdog s).ovf = s.ovf := by unfold watchdog; split_ifs <;> rfl
@[simp] theorem watchdog_time : (watchdog s).time = s.time := by unfold watchdog; split_ifs <;> rfl
@[simp] theorem watchdog_dispatched : (watchdog s).dispatched = s.dispatched := by unfold watchdog; split_ifs <;> rfl
@[simp] theorem watchdog_handled : (watchdog s).handled = s.handled := by unfold watchdog; split_ifs <;> rfl
@[simp] theorem watchdog_live : (watchdog s).live = s.live := by unfold watchdog; split_ifs <;> rfl
@[simp] theorem watchdog_nvm : (watchdog s).nvm = s.nvm := by unfold watchdog; split_ifs <;> rfl
@[simp] theorem watchdog_tx : (watchdog s).tx = s.tx := by unfold watchdog; split_ifs <;> rfl
@[simp] theorem watchdog_bootElapsed : (watchdog s).bootElapsed = s.bootElapsed := by unfold watchdog; split_ifs <;> rfl
@[simp] theorem watchdog_turns : (watchdog s).turns = s.turns := by unfold watchdog; split_ifs <;> rfl
@[simp] theorem watchdog_draws : (watchdog s).draws = s.draws := by unfold watchdog; split_ifs <;> rfl

/-- After a live cycle LAST_LIVE is the sampled time, otherwise it is kept (R171). -/
theorem watchdog_lastLive : (watchdog s).lastLive = if s.live then s.time else s.lastLive := by
  unfold watchdog; split_ifs <;> rfl

/-- ACTIVE after the watchdog step (R171). -/
theorem watchdog_active : (watchdog s).active =
    if s.live then true
    else if s.cfg.thresh ≤ elapsed s.cfg.timeW s.time s.lastLive then false else s.active := by
  unfold watchdog; split_ifs <;> rfl

/-! The frame-reader step writes RXQ, FRAME and DISPATCHED only (R191). -/

@[simp] theorem frameRead_cfg : (frameRead s).cfg = s.cfg := by unfold frameRead; split <;> rfl
@[simp] theorem frameRead_phase : (frameRead s).phase = s.phase := by unfold frameRead; split <;> rfl
@[simp] theorem frameRead_chanRaw : (frameRead s).chanRaw = s.chanRaw := by unfold frameRead; split <;> rfl
@[simp] theorem frameRead_ovf : (frameRead s).ovf = s.ovf := by unfold frameRead; split <;> rfl
@[simp] theorem frameRead_active : (frameRead s).active = s.active := by unfold frameRead; split <;> rfl
@[simp] theorem frameRead_lastLive : (frameRead s).lastLive = s.lastLive := by unfold frameRead; split <;> rfl
@[simp] theorem frameRead_time : (frameRead s).time = s.time := by unfold frameRead; split <;> rfl
@[simp] theorem frameRead_handled : (frameRead s).handled = s.handled := by unfold frameRead; split <;> rfl
@[simp] theorem frameRead_live : (frameRead s).live = s.live := by unfold frameRead; split <;> rfl
@[simp] theorem frameRead_nvm : (frameRead s).nvm = s.nvm := by unfold frameRead; split <;> rfl
@[simp] theorem frameRead_tx : (frameRead s).tx = s.tx := by unfold frameRead; split <;> rfl
@[simp] theorem frameRead_bootElapsed : (frameRead s).bootElapsed = s.bootElapsed := by unfold frameRead; split <;> rfl
@[simp] theorem frameRead_turns : (frameRead s).turns = s.turns := by unfold frameRead; split <;> rfl
@[simp] theorem frameRead_draws : (frameRead s).draws = s.draws := by unfold frameRead; split <;> rfl

variable {s}

theorem frameRead_of_some {f : Frame} {rest : List Byte} (h : takeFrame s.cfg.literals s.rxq = some (f, rest)) :
    frameRead s = { s with frame := f, rxq := rest, dispatched := true } := by
  unfold frameRead; rw [h]

theorem frameRead_of_none (h : takeFrame s.cfg.literals s.rxq = none) : frameRead s = { s with dispatched := false } := by
  unfold frameRead; rw [h]

/-! Commands (R140, R152). -/

/-- The eight storage bytes readIdentity answers (R120). -/
theorem readIdentity_eq (s : State) :
    readIdentity s = .next ((List.range' 0 8).map (Memory.read s.cfg s.nvm)) :=
  loadFrom_spec 8 0 s (by have := eight_le_nvmSize s.cfg; omega)

/-- SETID writes the storage list and the status bits; byte k of the token goes to address k, and no byte from
address 8 on changes (R144). -/
theorem execSetid_eq (t : Token) (s : State) :
    ∃ m, execSetid t s = .next { s with nvm := m, handled := true, live := false } ∧
      (Memory.wf s.cfg s.nvm = true → Memory.wf s.cfg m = true) ∧
      (∀ b, 8 ≤ b → Memory.read s.cfg m b = Memory.read s.cfg s.nvm b) ∧
      (∀ (k : Nat) (v : Byte), t.bytes[k]? = some v → Memory.read s.cfg m k = v) := by
  obtain ⟨m, hm, hwf, hother, hsame⟩ := storeFrom_spec t.bytes 0 s
    (by have := eight_le_nvmSize s.cfg; simp [token_bytes_length]; omega)
  refine ⟨m, ?_, hwf, fun b hb => hother b (.inr (by simpa [token_bytes_length] using hb)),
    fun k v hk => by simpa using hsame k v hk⟩
  unfold execSetid writeIdentity
  rw [hm]
  rfl

/-- What a command can do: it completes; GETNAME and GETID append to TX, SETID writes storage below address 8,
CPU and MEM set their channel, LA1, LA5 and LA15 their channel and bit, NOP nothing; HANDLED and LIVE as the
command's rule says. -/
theorem exec_cases (i : Instr) (s : State) : ∃ t, exec i s = .next t ∧
    match i with
    | .getname => t = report true false (emit (s.cfg.deviceName ++ s.cfg.lineEnd) s)
    | .getid => t = report true false
        (emit (render s.cfg.idRender ((List.range' 0 8).map (Memory.read s.cfg s.nvm)) ++ s.cfg.lineEnd) s)
    | .setid tok => ∃ m, t = { s with nvm := m, handled := true, live := false } ∧
        (Memory.wf s.cfg s.nvm = true → Memory.wf s.cfg m = true) ∧
        (∀ b, 8 ≤ b → Memory.read s.cfg m b = Memory.read s.cfg s.nvm b) ∧
        (∀ (k : Nat) (v : Byte), tok.bytes[k]? = some v → Memory.read s.cfg m k = v)
    | .cpu v => t = setPercent .cpu v s
    | .mem v => t = setPercent .mem v s
    | .la1 v => t = setLoad .la1 v s
    | .la5 v => t = setLoad .la5 v s
    | .la15 v => t = setLoad .la15 v s
    | .nop _ => t = report false false s := by
  cases i with
  | getid =>
    refine ⟨_, ?_, rfl⟩
    change execGetid s = _
    unfold execGetid
    rw [readIdentity_eq]
    rfl
  | setid tok =>
    obtain ⟨m, h, hm⟩ := execSetid_eq tok s
    exact ⟨_, h, m, rfl, hm⟩
  | getname | cpu | mem | la1 | la5 | la15 | nop => exact ⟨_, rfl, rfl⟩

/-- A command leaves everything but TX, NVM, CHAN_RAW, OVF, HANDLED and LIVE (R152). -/
theorem exec_leaves {i : Instr} {t : State} (h : exec i s = .next t) :
    t.cfg = s.cfg ∧ t.phase = s.phase ∧ t.rxq = s.rxq ∧ t.frame = s.frame ∧ t.active = s.active ∧
    t.lastLive = s.lastLive ∧ t.time = s.time ∧ t.dispatched = s.dispatched ∧
    t.bootElapsed = s.bootElapsed ∧ t.turns = s.turns ∧ t.draws = s.draws := by
  obtain ⟨u, hu, hc⟩ := exec_cases i s
  rw [hu] at h
  cases h
  cases i
  case setid => obtain ⟨m, rfl, _⟩ := hc; simp
  all_goals simp_all [setPercent, setLoad]

/-! Cycles, torn writes and steps. -/

/-- What a cycle can do: without a frame it clears the status bits, with one it performs its command; the
watchdog step follows (R193). -/
theorem cycle_cases {t : State} (h : cycle s = .next t) :
    (takeFrame s.cfg.literals s.rxq = none ∧
      t = watchdog { s with dispatched := false, handled := false, live := false }) ∨
    ∃ f rest u, takeFrame s.cfg.literals s.rxq = some (f, rest) ∧
      exec (decodeFrame f) { s with frame := f, rxq := rest, dispatched := true } = .next u ∧
      t = watchdog u := by
  unfold cycle dispatch at h
  cases hq : takeFrame s.cfg.literals s.rxq with
  | none =>
    rw [frameRead_of_none hq] at h
    cases h
    exact .inl ⟨rfl, rfl⟩
  | some p =>
    obtain ⟨f, rest⟩ := p
    rw [frameRead_of_some hq] at h
    obtain ⟨u, hu, _⟩ := exec_cases (decodeFrame f) { s with frame := f, rxq := rest, dispatched := true }
    rw [if_pos rfl, hu] at h
    cases h
    exact .inr ⟨f, rest, u, rfl, hu, rfl⟩

/-- What a torn write can do: with no SETID in progress it is a reset; with one, it resets the block, and the bytes
before the interrupted one are new and those after it old (R125). -/
theorem tornWrite_cases (k : Fin 8) (s : State) : ∃ t, tornWrite k s = .next t ∧
    ((t = blockReset s ∧ ∀ f rest tok, s.phase = .run → takeFrame s.cfg.literals s.rxq = some (f, rest) →
        decodeFrame f ≠ .setid tok) ∨
      ∃ f rest tok m, s.phase = .run ∧ takeFrame s.cfg.literals s.rxq = some (f, rest) ∧ decodeFrame f = .setid tok ∧
        t = blockReset { s with nvm := m, draws := s.draws + 1 } ∧
        (Memory.wf s.cfg s.nvm = true → Memory.wf s.cfg m = true) ∧
        (∀ a, k.val < a → Memory.read s.cfg m a = Memory.read s.cfg s.nvm a) ∧
        (∀ (a : Nat) (v : Byte), a < k.val → tok.bytes[a]? = some v → Memory.read s.cfg m a = v)) := by
  unfold tornWrite
  split
  · rename_i f rest hp hf
    split
    · rename_i tok hd
      have hl : (tok.bytes.take k.val ++ [Config.freeByte s.draws]).length = k.val + 1 := by
        have := k.isLt
        simp [token_bytes_length]
      obtain ⟨m, hm, hwf, hother, hsame⟩ :=
        storeFrom_spec (tok.bytes.take k.val ++ [Config.freeByte s.draws]) 0 s
          (by have := eight_le_nvmSize s.cfg; have := k.isLt; omega)
      rw [hm]
      refine ⟨_, rfl, .inr ⟨f, rest, tok, m, hp, hf, hd, rfl, hwf,
        fun a ha => hother a (.inr (by omega)), fun a v ha hv => ?_⟩⟩
      have hk := k.isLt
      simpa using hsame a v (by
        rw [List.getElem?_append_left (by simp [token_bytes_length]; omega), List.getElem?_take, if_pos ha]
        exact hv)
    · rename_i hd
      refine ⟨_, rfl, .inl ⟨rfl, fun f' rest' tok _ hf' he => ?_⟩⟩
      rw [hf] at hf'
      cases hf'
      exact hd tok he
  · rename_i hn
    exact ⟨_, rfl, .inl ⟨rfl, fun f rest tok hp hf _ => hn f rest hp hf⟩⟩

/-- What a step can do: main-loop entry, which may find itself not due and then does nothing; an event, a tick only
where no entry is due; a cycle, which in BOOT does nothing. -/
theorem step_cases {t : State} (h : step s = .next t) :
    ((nextMove s).1 = .enter ∧ entryDue s = true ∧ t = enterMainLoop (nextMove s).2) ∨
    ((nextMove s).1 = .enter ∧ entryDue s = false ∧ t = (nextMove s).2) ∨
    (∃ b, (nextMove s).1 = .event (.rxPush b) ∧ t = rxPush b (nextMove s).2) ∨
    ((nextMove s).1 = .event .tick ∧ entryDue s = false ∧ t = tick (nextMove s).2) ∨
    ((nextMove s).1 = .event .rxFlush ∧ t = rxFlush (nextMove s).2) ∨
    ((nextMove s).1 = .event .reset ∧ t = blockReset (nextMove s).2) ∨
    (∃ k, (nextMove s).1 = .event (.tornWrite k) ∧ tornWrite k (nextMove s).2 = .next t) ∨
    ((nextMove s).1 = .cycle ∧ s.phase = .boot ∧ t = (nextMove s).2) ∨
    ((nextMove s).1 = .cycle ∧ s.phase = .run ∧ cycle (nextMove s).2 = .next t) := by
  have hw := not_due_of_afterEntry (s := s)
  unfold step advance at h
  cases hm : (nextMove s).1 with
  | enter =>
    rw [hm] at h
    cases hd : entryDue s <;> simp [takeTurn, hd] at h <;> simp [h]
  | event e =>
    rw [hm] at h hw
    cases e with
    | rxPush b => cases h; simp
    | tick => cases h; simpa using hw rfl
    | rxFlush => cases h; simp
    | reset => cases h; simp
    | tornWrite k =>
      replace h : tornWrite k (nextMove s).2 = .next t := h
      simpa using h
  | cycle =>
    rw [hm] at h
    cases hp : s.phase <;> simp [takeTurn, hp] at h <;> simp [h]

end Sys2Proof.Machine
end

