-- ==== Sys2Proof/Tests/Slice0.lean ====
section
/-! SUPPORT. Tests of the model against spec/95_test_vectors.md and the worked examples of the rules, and, for
each statement with hypotheses, a concrete state that meets them. -/

namespace Sys2Proof.Tests

open Sys2Proof.Machine Sys2Proof.Safety

/-- The parameters of the vectors (95_test_vectors.md, opening list). -/
def params : Config.Params where
  literals := Config.sourceLiterals
  mapRound := .halfUp
  driveW := 8
  thresh := 5000
  timeW := 32
  rxqSpare := 55
  rxOverflow := .dropNew
  deviceName := [0x48#8, 0x51#8, 0x43#8]
  lineEnd := [0x0D#8, 0x0A#8]
  idRender := .cstring
  nvmToken := ⟨0xFF#8, 0xFF#8, 0xFF#8, 0xFF#8, 0xFF#8, 0xFF#8, 0xFF#8, 0xFF#8⟩
  nvmRest := []
  activeInit := true
  bootTicks := 5000

/-- The start state of the programs (95_test_vectors.md section 3), at TIME = 100. -/
def idle : State where
  cfg := params
  phase := .run
  rxq := []
  frame := ⟨0, ⟨0, 0, 0, 0, 0, 0, 0, 0⟩, []⟩
  chanRaw := ⟨0, 0, 0, 0, 0, []⟩
  ovf := ⟨false, false, false, []⟩
  active := true
  lastLive := 0
  time := 100
  dispatched := false
  handled := false
  live := false
  nvm := []
  tx := []
  bootElapsed := 0
  turns := [.cycle]
  draws := 0

/-- The idle state with bytes queued. -/
def queued (bs : List Byte) : State := { idle with rxq := bs }

/-- The block in BOOT after a number of ticks, with a schedule. -/
def booting (ticks : Nat) (turns : List Turn) : State :=
  { idle with phase := .boot, time := ticks, bootElapsed := ticks, turns := turns }

/-- A token, "QC-00042" (R143). -/
def qc : Token := ⟨0x51#8, 0x43#8, 0x2D#8, 0x30#8, 0x30#8, 0x30#8, 0x34#8, 0x32#8⟩

/-- The outcome is a next state with a property. -/
def goesTo (x : Host.Outcome State Fault Refusal) (p : State → Bool) : Bool :=
  match x with
  | .next t => p t
  | .fault _ => false
  | .refused _ => false

/-! ### Well-formedness and decoding -/

/-- The one check of Instr.wf: a NOP may not carry an assigned opcode (R76). -/
theorem test_wf_refuses_assigned_nop :
    ([0, 1, 2, 10, 11, 12, 13, 14].all fun n => !(Instr.nop (BitVec.ofNat 8 n)).wf) = true := by decide

theorem test_wf_accepts_unassigned_nop :
    ([3, 9, 15, 128, 255].all fun n => (Instr.nop (BitVec.ofNat 8 n)).wf) = true := by decide

/-- Words written out bit by bit from the patterns of the opcode table (R71, R75). -/
theorem test_decode_getname : decode Config.sourceLiterals [0b00000000, 0, 0, 0, 0, 0, 0, 0, 0] = .ok (.getname, []) := by decide

theorem test_decode_getid : decode Config.sourceLiterals [0b00000001, 9, 9, 9, 9, 9, 9, 9, 9] = .ok (.getid, []) := by decide

theorem test_decode_setid :
    decode Config.sourceLiterals [0b00000010, 0x51, 0x43, 0x2D, 0x30, 0x30, 0x30, 0x34, 0x32] = .ok (.setid qc, []) := by decide

theorem test_decode_cpu :
    decode Config.sourceLiterals [0b00001010, 0b00110010, 1, 2, 3, 4, 5, 6, 7] = .ok (.cpu 50, []) := by decide

theorem test_decode_mem :
    decode Config.sourceLiterals [0b00001011, 0b01100100, 0, 0, 0, 0, 0, 0, 0] = .ok (.mem 100, []) := by decide

theorem test_decode_la1 :
    decode Config.sourceLiterals [0b00001100, 0b00100011, 0, 0, 0, 0, 0, 0, 0] = .ok (.la1 35, []) := by decide

theorem test_decode_la5 :
    decode Config.sourceLiterals [0b00001101, 0b11001000, 0, 0, 0, 0, 0, 0, 0] = .ok (.la5 200, []) := by decide

theorem test_decode_la15 :
    decode Config.sourceLiterals [0b00001110, 0b01100101, 0, 0, 0, 0, 0, 0, 0] = .ok (.la15 101, []) := by decide

theorem test_decode_nop :
    decode Config.sourceLiterals [0b11111111, 1, 2, 3, 4, 5, 6, 7, 8, 9] = .ok (.nop 0xFF, [9]) := by decide

/-- Eight bytes are no frame (R70, V-FR2). -/
theorem test_decode_partial :
    decode Config.sourceLiterals [0x0A, 0x32, 0, 0, 0, 0, 0, 0] = .error (.partialFrame 8) := by decide

/-- The table's numbering: the opcode is bits 7..0 and v bits 15..8; bits above nbits are 0. -/
theorem test_decodeTableWord : decodeTableWord 72 0x320A = some (.cpu 50) ∧
    decodeTableWord 8 0x320A = some (.cpu 0) := by decide

/-- Other literals than the source's: 10 bytes a frame, 6 channels, 4 overflow bits, and OUT_MAX = 15 held in 4 bits. -/
def otherLiterals : Config.Literals where
  payloadExtra := 1
  chanExtra := 1
  ovfExtra := 1
  pctInMaxLess1 := 99
  outMax := 15
  laMax := 50
  rawW := 4

/-- With FRAME_LEN = 10 nine bytes are a partial frame, and the tenth is payload (R6, R70). -/
theorem test_decode_ten : decode otherLiterals [10, 7, 0, 0, 0, 0, 0, 0, 0] = .error (.partialFrame 9) ∧
    decode otherLiterals [10, 7, 0, 0, 0, 0, 0, 0, 0, 0xFF, 11] = .ok (.cpu 7, [11]) := by decide

/-! ### Output mapper (V-MP-HU, V-MP-FL, R103) -/

theorem test_mapPercent_halfUp :
    ([0, 1, 10, 42, 50, 100, 101, 200, 255].map fun n => mapPercent Config.sourceLiterals .halfUp (BitVec.ofNat 8 n)) =
      [0, 3, 26, 107, 128, 255, 258, 510, 650] := by decide

theorem test_mapPercent_other_modes :
    ([10, 30, 101, 250].map fun n => mapPercent Config.sourceLiterals .floor (BitVec.ofNat 8 n)) = [25, 76, 257, 637] ∧
    ([10, 30, 50, 70, 250].map fun n => mapPercent Config.sourceLiterals .halfEven (BitVec.ofNat 8 n)) =
      [26, 76, 128, 178, 638] := by decide

/-- With OUT_MAX = 15 and LA_MAX = 50 (R6): roundDiv(15 x, 100), clamped at 50 for a load average. -/
theorem test_mapper_other : mapPercent otherLiterals .halfUp 100 = 15 ∧
    mapLoadAverage otherLiterals .halfUp 51 = (8, true) ∧
    mapLoadAverage otherLiterals .floor 50 = (7, false) := by decide

/-- V-DR: 200 shows as 254, 255 as 138. -/
theorem test_drive : driveOf params (mapPercent Config.sourceLiterals .halfUp 200) = 254 ∧
    driveOf params (mapPercent Config.sourceLiterals .halfUp 255) = 138 := by decide

/-! ### Commands (95_test_vectors.md sections 2.2 and 2.3) -/

/-- V-D0. -/
theorem test_getname : goesTo (exec .getname idle) (fun t =>
    decide (t.tx = [0x48, 0x51, 0x43, 0x0D, 0x0A]) && t.handled && !t.live) = true := by decide

/-- V-ID3: never-written storage reads NVM_INIT. -/
theorem test_getid_unwritten : goesTo (exec .getid idle) (fun t =>
    decide (t.tx = [0xFF, 0xFF, 0xFF, 0xFF, 0xFF, 0xFF, 0xFF, 0xFF, 0x0D, 0x0A])) = true := by decide

/-- V-ID4: a 0x00 cuts the response short under CSTRING. -/
theorem test_getid_cut : goesTo (exec .getid { idle with
      nvm := [(0, 0x41), (1, 0x42), (2, 0x00), (3, 0x43), (4, 0x44), (5, 0x45), (6, 0x46), (7, 0x47)] })
    (fun t => decide (t.tx = [0x41, 0x42, 0x0D, 0x0A])) = true := by decide

/-- V-ID1. -/
theorem test_setid : goesTo (exec (.setid qc) idle) (fun t =>
    decide (t.nvm =
      [(0, 0x51), (1, 0x43), (2, 0x2D), (3, 0x30), (4, 0x30), (5, 0x30), (6, 0x34), (7, 0x32)]) &&
    decide (t.tx = []) && t.handled && !t.live) = true := by decide

/-- A byte equal to NVM_INIT leaves the list (log 8). -/
theorem test_setid_canonical : goesTo (exec (.setid ⟨0xFF, 1, 0xFF, 0xFF, 0xFF, 0xFF, 0xFF, 0xFF⟩)
    { idle with nvm := [(0, 0x51)] }) (fun t => decide (t.nvm = [(1, 0x01)])) = true := by decide

/-- V-D10. -/
theorem test_cpu : goesTo (exec (.cpu 42) idle) (fun t =>
    decide (t.chanRaw = ⟨107, 0, 0, 0, 0, []⟩) && t.handled && t.live) = true := by decide

/-- V-D11. -/
theorem test_mem : goesTo (exec (.mem 200) idle) (fun t =>
    decide (t.chanRaw = ⟨0, 510, 0, 0, 0, []⟩) && t.handled && t.live) = true := by decide

/-- V-D12. -/
theorem test_la1 : goesTo (exec (.la1 35) idle) (fun t =>
    decide (t.chanRaw = ⟨0, 0, 89, 0, 0, []⟩ ∧ t.ovf = ⟨false, false, false, []⟩) && t.live) = true := by decide

/-- V-D13. -/
theorem test_la5 : goesTo (exec (.la5 101) idle) (fun t =>
    decide (t.chanRaw = ⟨0, 0, 0, 255, 0, []⟩ ∧ t.ovf = ⟨false, true, false, []⟩) && t.live) = true := by decide

/-- V-D14b: an in-range value clears the overflow again. -/
theorem test_la5_clears : goesTo (exec (.la5 0) { idle with ovf := ⟨true, true, true, []⟩ }) (fun t =>
    decide (t.ovf = ⟨true, false, true, []⟩)) = true := by decide

/-- V-D14: 100 saturates without overflow. -/
theorem test_la15 : goesTo (exec (.la15 100) idle) (fun t =>
    decide (t.chanRaw = ⟨0, 0, 0, 0, 255, []⟩ ∧ t.ovf = ⟨false, false, false, []⟩) && t.live) = true := by decide

/-- V-NFF. -/
theorem test_nop : goesTo (exec (.nop 0xFF) { idle with handled := true, live := true }) (fun t =>
    decide (t = idle)) = true := by decide

/-! ### Watchdog (95_test_vectors.md section 2.4) -/

/-- V-WD2 and V-WD3: 4999 keeps ACTIVE, 5000 clears it. -/
theorem test_watchdog_threshold :
    (watchdog { idle with time := 4999 }).active = true ∧
    (watchdog { idle with time := 5000 }).active = false := by decide

/-- V-WD5 and V-WD6: the same across the wrap. -/
theorem test_watchdog_wrap :
    (watchdog { idle with time := 903, lastLive := 0xFFFFF000 }).active = true ∧
    (watchdog { idle with time := 904, lastLive := 0xFFFFF000 }).active = false := by decide

/-- V-WD12: an earlier now is a huge elapsed time. -/
theorem test_elapsed_alias : elapsed 32 3 5 = 0xFFFFFFFE := by decide

/-! ### Steps -/

/-- P1, cycle 1: CPU 42 dispatched at TIME 100. -/
theorem test_step_cpu : goesTo (step (queued [0x0A, 0x2A, 0, 0, 0, 0, 0, 0, 0, 0x0B])) (fun t =>
    decide (t.chanRaw.cpu = 107 ∧ t.rxq = [0x0B] ∧ t.lastLive = 100) && t.active && t.dispatched) = true := by
  decide

/-- V-FR7: at RXQ_CAP = 64 an arriving byte is discarded. -/
theorem test_push_full : (rxPush 7 (queued (List.replicate 63 0))).rxq.length = 64 ∧
    (rxPush 7 (queued (List.replicate 64 0))).rxq = List.replicate 64 0 := by decide

/-- A frame placed by withFetchWord in the power-on state is the next step's command. -/
theorem test_withFetchWord : goesTo (step (State.reset.withFetchWord 72 0x640B)) (fun t =>
    decide (t.chanRaw.mem = 255) && t.handled && t.live && t.dispatched) = true := by decide

/-- Every row of the opcode table runs as the first command after power-on. -/
theorem test_first_command : ([0x00, 0x01, 0x02, 0x0A, 0x0B, 0x0C, 0x0D, 0x0E].all fun w =>
    goesTo (step (State.reset.withFetchWord 72 w)) fun t => t.handled && t.dispatched) = true ∧
    goesTo (step (State.reset.withFetchWord 72 0x03)) (fun t => !t.handled && t.dispatched) = true := by
  decide

/-- V-ID8: power lost during write 4 leaves the block in BOOT, its queue empty (R241); the storage bytes are the
lemma tornWrite_cases. -/
theorem test_tornWrite : goesTo (tornWrite 4 (queued [2, 1, 2, 3, 4, 5, 6, 7, 8])) (fun t =>
    decide (t.phase = .boot ∧ t.rxq = [] ∧ t.time = 0)) = true := by
  decide

/-- With other literals main-loop entry clears the channels and bits beyond the index map too (R243). -/
theorem test_entry_other : goesTo (step { booting 5000 [] with cfg := { params with literals := otherLiterals } })
    (fun t => decide (t.chanRaw.more = [0] ∧ t.ovf.more = [false] ∧ t.phase = .run)) = true := by decide

/-- A reset that comes when main-loop entry is due pre-empts it (R213). -/
theorem test_reset_preempts_entry : goesTo (step (booting 5000 [.event .reset])) (fun t =>
    decide (t.phase = .boot ∧ t.bootElapsed = 0 ∧ t.time = 0)) = true := by decide

/-- A push before main-loop entry, and one after it (R213, R243): the byte is queued in BOOT, or in RUN. -/
theorem test_push_around_entry :
    goesTo (step (booting 5000 [.event (.rxPush 7), .enter])) (fun t =>
      decide (t.phase = .boot ∧ t.rxq = [7]) && goesTo (step t) (fun u => decide (u.phase = .run ∧ u.rxq = [7]))) &&
    goesTo (step (booting 5000 [.enter, .event (.rxPush 7)])) (fun t =>
      decide (t.phase = .run ∧ t.rxq = []) && goesTo (step t) (fun u => decide (u.phase = .run ∧ u.rxq = [7]))) =
      true := by decide

/-! ### Witnesses: concrete states that meet the hypotheses of the statements -/

/-- DecodeOfEncode, at the ends of the NOP ranges. -/
theorem witness_DecodeOfEncode : (Instr.nop 3).wf = true ∧ (Instr.nop 9).wf = true ∧
    (Instr.nop 15).wf = true ∧ (Instr.nop 255).wf = true ∧ (Instr.setid qc).wf = true := by decide

theorem witness_EveryFrameDecodes : frameLen Config.sourceLiterals ≤ (List.replicate 9 (0xFF#8)).length ∧
    (List.replicate 8 (0xFF#8)).length < frameLen Config.sourceLiterals := by decide

theorem witness_OpcodeMapRows : ∀ op ∈ [3#8, 9#8, 15#8, 255#8],
    (3 ≤ op.toNat ∧ op.toNat ≤ 9) ∨ 15 ≤ op.toNat := by decide

theorem witness_IgnoredPayload (s : State) :
    exec (decodeFrame ⟨0x0A, ⟨5, 1, 2, 3, 4, 5, 6, 7⟩, []⟩) s =
      exec (decodeFrame ⟨0x0A, ⟨5, 0, 0, 0, 0, 0, 0, 0⟩, []⟩) s ∧
    exec (decodeFrame ⟨0x0E, ⟨5, 1, 2, 3, 4, 5, 6, 7⟩, []⟩) s =
      exec (decodeFrame ⟨0x0E, ⟨5, 0, 0, 0, 0, 0, 0, 0⟩, []⟩) s ∧
    exec (decodeFrame ⟨0x01, qc, []⟩) s = exec (decodeFrame ⟨0x01, ⟨5, 0, 0, 0, 0, 0, 0, 0⟩, []⟩) s ∧
    exec (decodeFrame ⟨0x09, qc, []⟩) s = exec (decodeFrame ⟨0x09, ⟨5, 0, 0, 0, 0, 0, 0, 0⟩, []⟩) s :=
  ⟨rfl, rfl, rfl, rfl⟩

/-- RoundDivByMode: below, above and at a tie with an even and an odd quotient. -/
theorem witness_RoundDivByMode : 2 * (1 % 3) < 3 ∧ 3 < 2 * (2 % 3) ∧
    (2 * (1 % 2) = 2 ∧ 1 / 2 % 2 = 0) ∧ (2 * (3 % 2) = 2 ∧ 3 / 2 % 2 = 1) := by decide

theorem witness_mapper_bytes : (100#8).toNat ≤ 100 ∧ 101 ≤ (101#8).toNat ∧ (100#8).toNat = 100 ∧
    100 ≤ (100#8).toNat ∧ 50 ≤ 255 * (10#8).toNat % 100 ∧ (100#8).toNat < (101#8).toNat ∧
    params.driveW = 8 := by decide

theorem witness_LinesPresentRegisters : idle.phase = .run ∧
    (lines { idle with chanRaw := ⟨510, 0, 89, 255, 0, []⟩ }).cpu = 254 := by decide

theorem witness_StorageReadsAndWrites : 7 < nvmSize idle.cfg ∧ nvmSize idle.cfg ≤ 8 := by decide

theorem witness_RenderByMode : (0#8 ∉ [0x41#8, 0xFF#8]) ∧
    ([0x41#8, 0#8, 0x42#8] = [0x41#8] ++ 0#8 :: [0x42#8]) ∧ 0#8 ∉ [0x41#8] := by decide

/-- TokenReadsBack: a SETID and then a reset, which writes no storage. -/
theorem witness_TokenReadsBack : ∃ t, exec (.setid qc) { idle with turns := [.event .reset] } = .next t ∧
    Avoids writesStorage 1 t := by
  refine ⟨_, rfl, fun k t hk ht => ?_⟩
  obtain rfl : k = 0 := by omega
  cases ht
  rintro ⟨_, ⟨tok, rest, h⟩, _⟩
  cases h

theorem witness_SameTokenAgain : Memory.wf { idle with nvm := [(0, 0x51), (7, 0x32)] }.cfg
    [(0, 0x51), (7, 0x32)] = true := by decide

/-- TornTokenWrite, the first and the last byte. -/
theorem witness_TornTokenWrite : ∀ k ∈ [(0 : Fin 8), 7], ∃ s : State, s.phase = .run ∧
    s.turns = [.event (.tornWrite k)] ∧ decode s.cfg.literals s.rxq = .ok (.setid qc, []) :=
  fun k _ => ⟨{ idle with rxq := encode Config.sourceLiterals (.setid qc), turns := [.event (.tornWrite k)] }, rfl, rfl, rfl⟩

/-- StorageChangesOnlyBySetid: a step that writes storage, at address 7. -/
theorem witness_StorageChanges_write : ∃ t, step (queued (encode Config.sourceLiterals (.setid qc))) = .next t ∧
    memRead t 7 ≠ memRead (queued (encode Config.sourceLiterals (.setid qc))) 7 :=
  ⟨_, rfl, by intro h; exact absurd (Host.Outcome.next.inj h) (by decide)⟩

/-- StorageChangesOnlyBySetid: a step that writes none. -/
theorem witness_StorageChanges_none : (∃ t, step (queued (encode Config.sourceLiterals .getid)) = .next t) ∧
    ¬ writesStorage (queued (encode Config.sourceLiterals .getid)) := by
  refine ⟨⟨_, rfl⟩, ?_⟩
  rintro ⟨_, ⟨tok, rest, h⟩, _⟩
  cases h

theorem witness_CommandFrame : Instr.nop 3 ≠ .getname ∧ Instr.nop 3 ≠ .getid ∧
    (∀ t, Instr.nop 3 ≠ .setid t) ∧ (∀ v, Instr.nop 3 ≠ .cpu v) ∧ (∀ v, Instr.nop 3 ≠ .mem v) ∧
    (∀ v, Instr.nop 3 ≠ .la1 v) ∧ (∀ v, Instr.nop 3 ≠ .la5 v) ∧ (∀ v, Instr.nop 3 ≠ .la15 v) := by
  simp

/-- WatchdogStep, each branch, the last two at the threshold. -/
theorem witness_WatchdogStep : { idle with live := true }.live = true ∧
    ({ idle with time := 5000 }.live = false ∧ (5000 : Int) ≤ (5000 - 0) % 2 ^ 32) ∧
    ({ idle with time := 4999 }.live = false ∧ ((4999 : Int) - 0) % 2 ^ 32 < 5000) := by decide

theorem witness_ElapsedIsWrapSafe : 903 < 2 ^ 32 ∧ 0xFFFFF000 < 2 ^ 32 ∧ 4999 < 2 ^ 32 ∧
    903 = (0xFFFFF000 + 4999) % 2 ^ 32 := by decide

/-- A running block with ACTIVE low and a CPU frame queued. -/
def waking : State := { queued (encode Config.sourceLiterals (.cpu 50)) with active := false }

theorem witness_ActiveRises : ∃ t, waking.phase = .run ∧ step waking = .next t ∧ ¬ resets waking ∧
    waking.active = false ∧ t.active = true := by
  refine ⟨_, rfl, rfl, ?_, rfl, rfl⟩
  rintro (h | ⟨k, h⟩) <;> cases h

theorem witness_LiveCycle : runsCycle waking ∧
    takeFrame params.literals waking.rxq = some (⟨0x0A, ⟨50, 0, 0, 0, 0, 0, 0, 0⟩, []⟩, []) := ⟨⟨rfl, rfl⟩, rfl⟩

theorem witness_LiveCycle_opcode : 10 ≤ (0x0A#8).toNat ∧ (0x0E#8).toNat ≤ 14 := by decide

theorem noLiveFrame_nil : NoLiveFrame Config.sourceLiterals [] := by
  intro k b h
  have : frameLen Config.sourceLiterals = 9 := rfl
  simp [this] at h

theorem noLiveFrame_getname : NoLiveFrame Config.sourceLiterals (encode Config.sourceLiterals .getname) := by
  intro k b h hb
  have hk : k = 0 := by
    have : frameLen Config.sourceLiterals = 9 := rfl
    rw [encode_length, this] at h
    omega
  subst hk
  cases hb
  rfl

/-- ActiveFallsExactlyAtThreshold: just after a live cycle, gaps of 4999 and 1, a non-live frame queued. -/
theorem witness_ActiveFalls : ∃ s : State, s.phase = .run ∧ s.active = true ∧ NoLiveFrame s.cfg.literals s.rxq ∧
    s.lastLive < 2 ^ s.cfg.timeW ∧ s.time = (s.lastLive + 0) % 2 ^ s.cfg.timeW ∧
    s.turns = tickedCycles [4999, 1] ++ [] ∧ 0 + 4999 ≤ 2 ^ s.cfg.timeW - s.cfg.thresh ∧
    ∀ x ∈ [1], x ≤ 2 ^ s.cfg.timeW - s.cfg.thresh := by
  refine ⟨{ queued (encode Config.sourceLiterals .getname) with lastLive := 100, turns := tickedCycles [4999, 1] }, rfl, rfl,
    noLiveFrame_getname, ?_, ?_, by simp, ?_, ?_⟩ <;> decide

theorem booting_inv (ticks : Nat) (turns : List Turn) (h : ticks ≤ 5000) : Inv (booting ticks turns) := by
  have h2 : ticks < 2 ^ 32 := by omega
  constructor <;> simp [booting, idle, params, Memory.wf, Memory.rises, Config.sourceLiterals, Channels.levels, Overflows.bits, nChan, nOvf,
    frame_bytes_length_iff, h] <;> omega

theorem witness_LongBoot : ∃ s : State, s.phase = .boot ∧ Inv s ∧ s.bootElapsed = s.cfg.bootTicks ∧
    s.cfg.thresh ≤ s.cfg.bootTicks ∧ s.cfg.bootTicks < 2 ^ s.cfg.timeW ∧ s.turns = [.cycle] ∧
    NoLiveFrame s.cfg.literals s.rxq :=
  ⟨booting 5000 [.cycle], rfl, booting_inv _ _ (by decide), rfl, by decide, by decide, rfl, noLiveFrame_nil⟩

/-- StepRunsDecodedCommand: by the schedule's head, and by the block's own move at its end. -/
theorem witness_StepRuns : runsCycle waking ∧ runsCycle { waking with turns := [] } ∧
    decode params.literals waking.rxq = .ok (.cpu 50, []) := ⟨⟨rfl, rfl⟩, ⟨rfl, rfl⟩, rfl⟩

theorem witness_CycleWithoutFrame : runsCycle (queued (List.replicate 8 0)) ∧
    (queued (List.replicate 8 0)).rxq.length < frameLen params.literals := ⟨⟨rfl, rfl⟩, by decide⟩

/-- ScheduleDecidesMove: each clause, with a reset and a cycle at a due entry. -/
theorem witness_Schedule : (idle.turns = .cycle :: [] ∧ entryDue idle = false) ∧
    ((booting 5000 [.event .reset]).turns = .event .reset :: [] ∧ Turn.event .reset ≠ .cycle ∧
      Turn.event .reset ≠ .event .tick) ∧
    ((booting 5000 [.cycle]).turns = .cycle :: [] ∧ entryDue (booting 5000 [.cycle]) = true) ∧
    ({ idle with turns := [] }.phase = .run) ∧
    ((booting 4999 []).turns = [] ∧ entryDue (booting 4999 []) = false) ∧
    ((booting 5000 []).turns = [] ∧ entryDue (booting 5000 []) = true) := by decide

/-- PushAppendsOrDrops: room for one byte, a full queue under DROP_NEW, and under ANY_DROP. -/
theorem witness_Push (b : Byte) :
    (∃ s : State, s.turns = [.event (.rxPush b)] ∧ s.rxq.length + 1 = rxqCap s.cfg) ∧
    (∃ s : State, s.turns = [.event (.rxPush b)] ∧ rxqCap s.cfg ≤ s.rxq.length ∧
      s.cfg.rxOverflow = .dropNew) ∧
    (∃ s : State, s.turns = [.event (.rxPush b)] ∧ rxqCap s.cfg ≤ s.rxq.length ∧
      s.cfg.rxOverflow = .anyDrop) :=
  ⟨⟨{ queued (List.replicate 63 0) with turns := [.event (.rxPush b)] }, rfl, rfl⟩,
    ⟨{ queued (List.replicate 64 0) with turns := [.event (.rxPush b)] }, rfl, Nat.le_refl 64, rfl⟩,
    ⟨{ queued (List.replicate 64 0) with
        turns := [.event (.rxPush b)], cfg := { params with rxOverflow := .anyDrop } },
      rfl, Nat.le_refl 64, rfl⟩⟩

theorem witness_FrameRead : frameLen params.literals = 9 ∧ 9 ≤ (queued (List.replicate 9 0)).rxq.length ∧
    (queued (List.replicate 8 0)).rxq.length < 9 := by decide

/-- QueueDrainsFrameByFrame: a cycle that dispatches (k = 2) and one that does not (k = 3), on 19 bytes. -/
theorem witness_QueueDrains : ∀ k ∈ [2, 3], ∃ s : State, 9 = frameLen s.cfg.literals ∧ s.phase = .run ∧ 0 < k ∧
    s.turns = List.replicate k .cycle ++ [] ∧ s.rxq.length = 19 := by
  intro k hk
  refine ⟨{ queued (List.replicate 19 0) with turns := List.replicate k .cycle }, rfl, rfl, ?_, by simp, rfl⟩
  revert k
  decide

/-- FramesAreCutsOfAcceptedBytes: an empty queue, a push and a cycle. -/
theorem witness_FramesAreCuts : ∃ s t : State, s.cfg.rxOverflow = .dropNew ∧ s.rxq = [] ∧
    Avoids realigns 2 s ∧ core.run 2 s = .next t := by
  refine ⟨{ idle with turns := [.event (.rxPush 1), .cycle] }, _, rfl, rfl, ?_, rfl⟩
  intro k t hk ht
  obtain rfl | rfl : k = 0 ∨ k = 1 := by omega
  · cases ht
    rintro ((h | ⟨j, h⟩) | h) <;> cases h
  · cases ht
    rintro ((h | ⟨j, h⟩) | h) <;> cases h

theorem witness_Flush : ∃ s : State, s.turns = [.event .rxFlush] := ⟨{ idle with turns := [.event .rxFlush] }, rfl⟩

/-- TickCounts, in RUN at the wrap and in BOOT. -/
theorem witness_Tick :
    (∃ s : State, s.turns = [.event .tick] ∧ entryDue s = false ∧ s.phase = .run ∧ s.time = 0xFFFFFFFF) ∧
    (∃ s : State, s.turns = [.event .tick] ∧ entryDue s = false ∧ s.phase = .boot) :=
  ⟨⟨{ idle with turns := [.event .tick], time := 0xFFFFFFFF }, rfl, rfl, rfl, rfl⟩,
    ⟨booting 4999 [.event .tick], rfl, rfl, rfl⟩⟩

/-- ResetSetsState, in RUN and at a due main-loop entry. -/
theorem witness_Reset : (∃ s : State, s.turns = [.event .reset] ∧ s.phase = .run) ∧
    ∃ s : State, s.turns = [.event .reset] ∧ entryDue s = true :=
  ⟨⟨{ idle with turns := [.event .reset] }, rfl, rfl⟩, ⟨booting 5000 [.event .reset], rfl, rfl⟩⟩

/-- EventsInAnyOrder: a push, a tick and a transport reset. -/
theorem witness_EventsInAnyOrder : ∃ s : State, s.phase = .run ∧ s.time < 2 ^ s.cfg.timeW ∧
    s.turns = [Event.rxPush 1, .tick, .rxFlush].map .event ++ [.cycle] ∧
    ∀ e ∈ [Event.rxPush 1, .tick, .rxFlush], (∃ b, e = .rxPush b) ∨ e = .tick ∨ e = .rxFlush :=
  ⟨{ idle with turns := [.event (.rxPush 1), .event .tick, .event .rxFlush, .cycle] }, rfl, by decide, rfl, by simp⟩

/-- MainLoopEntry: due with an empty schedule and before a tick; due with a reset first; one tick early. -/
theorem witness_MainLoopEntry :
    ((booting 5000 []).phase = .boot ∧ Inv (booting 5000 []) ∧ (booting 5000 []).bootElapsed = 5000 ∧
      moveOf (booting 5000 []) = .enter ∧ moveOf (booting 5000 [.event .tick]) = .enter) ∧
    (Inv (booting 5000 [.event .reset]) ∧ moveOf (booting 5000 [.event .reset]) ≠ .enter) ∧
    ((booting 4999 []).phase = .boot ∧ Inv (booting 4999 []) ∧ (booting 4999 []).bootElapsed ≠ 5000) :=
  ⟨⟨rfl, booting_inv _ _ (by decide), rfl, rfl, rfl⟩, ⟨booting_inv _ _ (by decide), by decide⟩,
    ⟨rfl, booting_inv _ _ (by decide), by decide⟩⟩

theorem witness_BootRunsNoCycle : ∃ t, step (booting 7 [.event (.rxPush 1)]) = .next t ∧ t.phase = .boot ∧
    ¬ resets (booting 7 [.event (.rxPush 1)]) := by
  refine ⟨_, rfl, rfl, ?_⟩
  rintro (h | ⟨k, h⟩) <;> cases h

/-- PhaseChangesOnlyByEntryAndReset: a reset out of RUN, main-loop entry, and a cycle scheduled in BOOT. -/
theorem witness_PhaseChanges :
    (∃ t, step { idle with turns := [.event .reset] } = .next t ∧ resets { idle with turns := [.event .reset] } ∧
      t.phase = .boot) ∧
    (∃ t, step (booting 5000 []) = .next t ∧ t.phase = .run) ∧
    (∃ t, step (booting 7 [.cycle]) = .next t ∧ moveOf (booting 7 [.cycle]) = .cycle) :=
  ⟨⟨_, rfl, .inl rfl, rfl⟩, ⟨_, rfl, rfl⟩, ⟨_, rfl, rfl⟩⟩

theorem witness_ResponseStream : ∃ t, step (queued (encode Config.sourceLiterals .getname)) = .next t ∧ t.tx ≠ [] :=
  ⟨_, rfl, by decide⟩

/-- OutputsHoldBetweenCommands, one channel of each kind. -/
theorem witness_OutputsHold : waking.phase = .run ∧ ¬ resets waking ∧
    (∃ t, step waking = .next t ∧ t.chanRaw.cpu ≠ waking.chanRaw.cpu) ∧
    (∃ t, step (queued (encode Config.sourceLiterals (.la15 101))) = .next t ∧ t.ovf.la15 ≠ idle.ovf.la15) := by
  refine ⟨rfl, ?_, ⟨_, rfl, by decide⟩, ⟨_, rfl, by decide⟩⟩
  rintro (h | ⟨k, h⟩) <;> cases h

/-- StepKeepsInvariant: the invariant holds in a running state too, with a step out of it. -/
theorem witness_StepKeepsInvariant : Inv waking ∧ ∃ t, step waking = .next t := by
  refine ⟨?_, ⟨_, rfl⟩⟩
  constructor <;> decide

/-- SourceLiteralRanges: a running state under the invariant with a saturated channel and its bit. -/
theorem witness_SourceLiteralRanges : ∃ s : State, s.cfg.literals = Config.sourceLiterals ∧ Inv s ∧
    s.phase = .run ∧ s.ovf.la1 = true := by
  refine ⟨{ idle with chanRaw := ⟨650, 0, 255, 0, 0, []⟩, ovf := ⟨true, false, false, []⟩ }, rfl, ?_, rfl, rfl⟩
  constructor <;> decide

end Sys2Proof.Tests
end

section
/-! The parameters of 00_scope.md R6: their defaults, the two mappings at any value of them, and that no step
changes one (R7). -/

namespace Sys2Proof.Machine

/-! ### Bounds on the parameters that are held as an excess (R6) -/

/-- FRAME_LEN is at least the source's 9 (R6, R70). -/
theorem nine_le_frameLen (L : Config.Literals) : 9 ≤ frameLen L := by
  unfold frameLen payloadLen; omega

/-- The receive queue has room for a frame (R29). -/
theorem frameLen_le_rxqCap (cfg : Config.Params) : frameLen cfg.literals ≤ rxqCap cfg :=
  Nat.le_add_left _ _

/-- Settles O58: the defaults are the launch's own fields; the two OPEN sizes have their bounds in every launch. -/
theorem parameterDefaults : Obligations.ParameterDefaults := by
  have hcap : 9 ≤ rxqCap State.reset.cfg := (nine_le_frameLen _).trans (frameLen_le_rxqCap _)
  have hnvm : 8 ≤ nvmSize State.reset.cfg := eight_le_nvmSize _
  exact ⟨rfl, rfl, rfl, rfl, rfl, rfl, rfl, rfl, rfl, rfl, rfl, rfl, rfl, rfl, rfl, rfl, rfl, hcap, hnvm⟩

/-! ### The two mappings (R100, R104) -/

section
variable (L : Config.Literals) (m : Config.RoundMode) (v : Byte)

theorem mapPercent_eq :
    mapPercent L m v = roundDiv m (L.outMax * v.toNat) (pctInMax L) % 2 ^ L.rawW := rfl

theorem mapLoadAverage_level :
    (mapLoadAverage L m v).1 = roundDiv m (L.outMax * min v.toNat L.laMax) (pctInMax L) % 2 ^ L.rawW := rfl

theorem mapLoadAverage_overflow_iff : (mapLoadAverage L m v).2 = true ↔ L.laMax < v.toNat :=
  decide_eq_true_iff

end

/-- Settles O59, by the equation of each mapping and of the overflow bit. -/
theorem mapperByParameters : Obligations.MapperByParameters := fun L m v =>
  ⟨mapPercent_eq L m v, mapLoadAverage_level L m v, mapLoadAverage_overflow_iff L m v⟩

/-! ### No step changes a parameter (R7) -/

@[simp] theorem rxPush_cfg (b : Byte) (s : State) : (rxPush b s).cfg = s.cfg := by
  unfold rxPush
  split_ifs
  · rfl
  · split <;> rfl

@[simp] theorem tick_cfg (s : State) : (tick s).cfg = s.cfg := by
  unfold tick; split <;> rfl

theorem tornWrite_keeps_cfg {k : Fin 8} {s t : State} (h : tornWrite k s = .next t) : t.cfg = s.cfg := by
  obtain ⟨u, hu, hc⟩ := tornWrite_cases k s
  cases hu.symm.trans h
  obtain ⟨rfl, -⟩ | ⟨_, _, _, _, -, -, -, rfl, -⟩ := hc
  · exact blockReset_cfg _
  · exact blockReset_cfg _

theorem cycle_keeps_cfg {s t : State} (h : cycle s = .next t) : t.cfg = s.cfg := by
  obtain ⟨-, rfl⟩ | ⟨_, _, u, -, hu, rfl⟩ := cycle_cases h
  · exact watchdog_cfg _
  · obtain ⟨hcfg, -⟩ := exec_leaves hu
    exact (watchdog_cfg u).trans hcfg

/-- Settles O51, by cases on the step's move: each keeps the parameters of the state it is made in, and taking the
move off the schedule does too. -/
theorem parametersConstant : Obligations.ParametersConstant := by
  intro s t h
  rw [← nextMove_cfg s]
  obtain ⟨-, -, rfl⟩ | ⟨-, -, rfl⟩ | ⟨b, -, rfl⟩ | ⟨-, -, rfl⟩ | ⟨-, rfl⟩ | ⟨-, rfl⟩ | ⟨k, -, htorn⟩ |
    ⟨-, -, rfl⟩ | ⟨-, -, hcycle⟩ := step_cases h
  · exact enterMainLoop_cfg _
  · rfl
  · exact rxPush_cfg b _
  · exact tick_cfg _
  · exact rxFlush_cfg _
  · exact blockReset_cfg _
  · exact tornWrite_keeps_cfg htorn
  · rfl
  · exact cycle_keeps_cfg hcycle

end Sys2Proof.Machine
end

section
/-! What each operation keeps and changes, one fact each: the schedule, a push, a tick, a torn write, a command and a
cycle. The statements of 10_state.md are read off these. -/

namespace Sys2Proof.Machine

variable {s t : State}

/-- The block is in one phase at a time (R33). -/
theorem not_boot_of_run {p : Phase} (hr : p = .run) (hb : p = .boot) : False := by
  cases hr.symm.trans hb

/-! ### Taking the move off the schedule (R198) -/

/-- Taking the next move off the schedule writes nothing but the schedule and the number of draws. -/
theorem nextMove_state (s : State) : ∃ ts d, (nextMove s).2 = { s with turns := ts, draws := d } := by
  unfold nextMove nextTurn
  split_ifs
  · exact ⟨_, _, rfl⟩
  · split <;> exact ⟨_, _, rfl⟩

theorem entryDue_iff : entryDue s = true ↔ s.phase = .boot ∧ s.cfg.bootTicks ≤ s.bootElapsed := by
  unfold entryDue
  split <;> simp_all

/-- In RUN main-loop entry is not due (R243). -/
theorem phase_boot_of_entryDue (h : entryDue s = true) : s.phase = .boot := (entryDue_iff.1 h).1

/-! ### Pushes and ticks (R190, R217) -/

/-- A push writes nothing but the queue and the number of draws. -/
theorem rxPush_state (b : Byte) (s : State) : ∃ q d, rxPush b s = { s with rxq := q, draws := d } := by
  unfold rxPush
  split_ifs
  · exact ⟨_, _, rfl⟩
  · split <;> exact ⟨_, _, rfl⟩

@[simp] theorem rxPush_phase (b : Byte) (s : State) : (rxPush b s).phase = s.phase := by
  obtain ⟨q, d, h⟩ := rxPush_state b s; rw [h]
@[simp] theorem rxPush_time (b : Byte) (s : State) : (rxPush b s).time = s.time := by
  obtain ⟨q, d, h⟩ := rxPush_state b s; rw [h]
@[simp] theorem rxPush_tx (b : Byte) (s : State) : (rxPush b s).tx = s.tx := by
  obtain ⟨q, d, h⟩ := rxPush_state b s; rw [h]
@[simp] theorem rxPush_chanRaw (b : Byte) (s : State) : (rxPush b s).chanRaw = s.chanRaw := by
  obtain ⟨q, d, h⟩ := rxPush_state b s; rw [h]
@[simp] theorem rxPush_ovf (b : Byte) (s : State) : (rxPush b s).ovf = s.ovf := by
  obtain ⟨q, d, h⟩ := rxPush_state b s; rw [h]

/-- A push never fills the queue beyond RXQ_CAP (R29). -/
theorem rxPush_length_le (b : Byte) (h : s.rxq.length ≤ rxqCap s.cfg) : (rxPush b s).rxq.length ≤ rxqCap s.cfg := by
  unfold rxPush
  split_ifs with hroom
  · simpa using hroom
  · split
    · exact h
    · have hlt : Config.freeIndex s.draws % (s.rxq.length + 1) < (s.rxq ++ [b]).length := by
        simpa using Nat.mod_lt _ (Nat.succ_pos _)
      simpa [List.length_eraseIdx_of_lt hlt] using h

theorem tick_of_run (h : s.phase = .run) : tick s = { s with time := (s.time + 1) % 2 ^ s.cfg.timeW } := by
  unfold tick; rw [h]

theorem tick_of_boot (h : s.phase = .boot) :
    tick s = bootOutputs { s with time := (s.time + 1) % 2 ^ s.cfg.timeW, bootElapsed := s.bootElapsed + 1 } := by
  unfold tick; rw [h]

@[simp] theorem tick_phase (s : State) : (tick s).phase = s.phase := by unfold tick; split <;> simp_all
@[simp] theorem tick_time (s : State) : (tick s).time = (s.time + 1) % 2 ^ s.cfg.timeW := by
  unfold tick; split <;> rfl
@[simp] theorem tick_tx (s : State) : (tick s).tx = s.tx := by unfold tick; split <;> rfl

/-! ### Torn writes (R125) -/

/-- A torn write is a reset of the state with another storage list, which is canonical if the old one is. -/
theorem tornWrite_is_reset {k : Fin 8} (h : tornWrite k s = .next t) :
    ∃ m d, t = blockReset { s with nvm := m, draws := d } ∧
      (Memory.wf s.cfg s.nvm = true → Memory.wf s.cfg m = true) := by
  obtain ⟨u, hu, hc⟩ := tornWrite_cases k s
  cases hu.symm.trans h
  obtain ⟨rfl, -⟩ | ⟨_, _, _, m, -, -, -, rfl, hwf, -⟩ := hc
  · exact ⟨s.nvm, s.draws, rfl, id⟩
  · exact ⟨m, s.draws + 1, rfl, hwf⟩

/-! ### Commands (R24, R62, R152) -/

/-- The frame a decoded command assembles to has the opcode of the frame it was decoded from (R75, R79). -/
theorem encodeFrame_decodeFrame_op (L : Config.Literals) (f : Frame) :
    (encodeFrame L (decodeFrame f)).op = f.op := by
  unfold decodeFrame
  split_ifs with h h h h h h h h <;> simp [encodeFrame, frameOf, *]

/-- The index of a channel in the index map of R24. -/
def channelIndex : Channel → Nat
  | .cpu => 0
  | .mem => 1
  | .la1 => 2
  | .la5 => 3
  | .la15 => 4

/-- The opcode that writes a channel, 10..14 in the order of R24. -/
def channelOpcode (c : Channel) : Byte := BitVec.ofNat 8 (10 + channelIndex c)

/-- Setting a channel sets the entry at its index. -/
theorem levels_withLevel (r : Channels) (c : Channel) (l : Nat) :
    Channels.levels (Channels.withLevel r c l) = (Channels.levels r).set (channelIndex c) l := by cases c <;> rfl

theorem level_withLevel (r : Channels) (c : Channel) (l : Nat) (d : Channel) :
    Channels.level (Channels.withLevel r c l) d = if d = c then l else Channels.level r d := by
  cases c <;> cases d <;> rfl

theorem bit_withBit (o : Overflows) (c : LoadChannel) (b : Bool) (d : LoadChannel) :
    Overflows.bit (Overflows.withBit o c b) d = if d = c then b else Overflows.bit o d := by
  cases c <;> cases d <;> rfl

@[simp] theorem withLevel_more (r : Channels) (c : Channel) (l : Nat) :
    (Channels.withLevel r c l).more = r.more := by cases c <;> rfl
@[simp] theorem withBit_more (o : Overflows) (c : LoadChannel) (b : Bool) :
    (Overflows.withBit o c b).more = o.more := by cases c <;> rfl

variable {i : Instr}

/-- A command appends to TX, and appends nothing unless its opcode is 0 or 1 (R31, R62). -/
theorem exec_tx (L : Config.Literals) (h : exec i s = .next t) :
    ∃ bs, t.tx = s.tx ++ bs ∧ (bs ≠ [] → (encodeFrame L i).op = 0#8 ∨ (encodeFrame L i).op = 1#8) := by
  obtain ⟨u, hu, hc⟩ := exec_cases i s
  cases hu.symm.trans h
  cases i with
  | getname => exact ⟨_, by rw [hc]; rfl, fun _ => .inl rfl⟩
  | getid => exact ⟨_, by rw [hc]; rfl, fun _ => .inr rfl⟩
  | setid tok =>
    obtain ⟨m, rfl, -⟩ := hc
    exact ⟨[], (List.append_nil _).symm, fun hne => absurd rfl hne⟩
  | cpu | mem | la1 | la5 | la15 | nop =>
    subst hc
    exact ⟨[], (List.append_nil _).symm, fun hne => absurd rfl hne⟩

/-- A command leaves the level of every channel whose opcode it does not carry (R152). -/
theorem exec_keeps_level {c : Channel} (L : Config.Literals) (h : exec i s = .next t)
    (hop : (encodeFrame L i).op ≠ channelOpcode c) : Channels.level t.chanRaw c = Channels.level s.chanRaw c := by
  obtain ⟨u, hu, hc⟩ := exec_cases i s
  cases hu.symm.trans h
  cases i with
  | cpu | mem | la1 | la5 | la15 =>
    subst hc
    exact (level_withLevel ..).trans (if_neg (by rintro rfl; exact hop rfl))
  | setid tok => obtain ⟨m, rfl, -⟩ := hc; rfl
  | getname | getid | nop => rw [hc]; rfl

/-- A command leaves the overflow bit of every channel whose opcode it does not carry (R152). -/
theorem exec_keeps_bit {c : LoadChannel} (L : Config.Literals) (h : exec i s = .next t)
    (hop : (encodeFrame L i).op ≠ channelOpcode (LoadChannel.channel c)) :
    Overflows.bit t.ovf c = Overflows.bit s.ovf c := by
  obtain ⟨u, hu, hc⟩ := exec_cases i s
  cases hu.symm.trans h
  cases i with
  | la1 | la5 | la15 =>
    subst hc
    exact (bit_withBit ..).trans (if_neg (by rintro rfl; exact hop rfl))
  | setid tok => obtain ⟨m, rfl, -⟩ := hc; rfl
  | getname | getid | cpu | mem | nop => rw [hc]; rfl

/-- No command writes a channel or a bit outside the index map (R24). -/
theorem exec_keeps_more (h : exec i s = .next t) :
    t.chanRaw.more = s.chanRaw.more ∧ t.ovf.more = s.ovf.more := by
  obtain ⟨u, hu, hc⟩ := exec_cases i s
  cases hu.symm.trans h
  cases i with
  | setid tok => obtain ⟨m, rfl, -⟩ := hc; exact ⟨rfl, rfl⟩
  | getname | getid | cpu | mem | la1 | la5 | la15 | nop => subst hc; exact ⟨rfl, rfl⟩

/-! ### Cycles (R193) -/

theorem cycle_keeps_phase (h : cycle s = .next t) : t.phase = s.phase := by
  obtain ⟨-, rfl⟩ | ⟨_, _, u, -, hu, rfl⟩ := cycle_cases h
  · exact watchdog_phase _
  · obtain ⟨-, hphase, -⟩ := exec_leaves hu
    exact (watchdog_phase u).trans hphase

theorem cycle_keeps_time (h : cycle s = .next t) : t.time = s.time := by
  obtain ⟨-, rfl⟩ | ⟨_, _, u, -, hu, rfl⟩ := cycle_cases h
  · exact watchdog_time _
  · obtain ⟨-, -, -, -, -, -, htime, -⟩ := exec_leaves hu
    exact (watchdog_time u).trans htime

/-- A cycle appends to TX, and appends nothing unless its frame has opcode 0 or 1. -/
theorem cycle_tx (h : cycle s = .next t) : ∃ bs, t.tx = s.tx ++ bs ∧
    (bs ≠ [] → ∃ f rest, takeFrame s.cfg.literals s.rxq = some (f, rest) ∧ (f.op = 0#8 ∨ f.op = 1#8)) := by
  obtain ⟨-, rfl⟩ | ⟨f, rest, u, hq, hu, rfl⟩ := cycle_cases h
  · exact ⟨[], by simp, fun hne => absurd rfl hne⟩
  · obtain ⟨bs, hbs, hop⟩ := exec_tx s.cfg.literals hu
    rw [encodeFrame_decodeFrame_op] at hop
    exact ⟨bs, (watchdog_tx u).trans hbs, fun hne => ⟨f, rest, hq, hop hne⟩⟩

/-- A cycle changes a level only if its frame has that channel's opcode. -/
theorem cycle_level {c : Channel} (h : cycle s = .next t)
    (hne : Channels.level t.chanRaw c ≠ Channels.level s.chanRaw c) :
    ∃ f rest, takeFrame s.cfg.literals s.rxq = some (f, rest) ∧ f.op = channelOpcode c := by
  obtain ⟨-, rfl⟩ | ⟨f, rest, u, hq, hu, rfl⟩ := cycle_cases h
  · simp at hne
  · rw [watchdog_chanRaw] at hne
    refine ⟨f, rest, hq, ?_⟩
    rw [← encodeFrame_decodeFrame_op s.cfg.literals f]
    exact not_imp_comm.1 (exec_keeps_level s.cfg.literals hu) hne

/-- A cycle changes an overflow bit only if its frame has that channel's opcode. -/
theorem cycle_bit {c : LoadChannel} (h : cycle s = .next t)
    (hne : Overflows.bit t.ovf c ≠ Overflows.bit s.ovf c) :
    ∃ f rest, takeFrame s.cfg.literals s.rxq = some (f, rest) ∧ f.op = channelOpcode (LoadChannel.channel c) := by
  obtain ⟨-, rfl⟩ | ⟨f, rest, u, hq, hu, rfl⟩ := cycle_cases h
  · simp at hne
  · rw [watchdog_ovf] at hne
    refine ⟨f, rest, hq, ?_⟩
    rw [← encodeFrame_decodeFrame_op s.cfg.literals f]
    exact not_imp_comm.1 (exec_keeps_bit s.cfg.literals hu) hne

theorem cycle_keeps_more (h : cycle s = .next t) :
    t.chanRaw.more = s.chanRaw.more ∧ t.ovf.more = s.ovf.more := by
  obtain ⟨-, rfl⟩ | ⟨f, rest, u, -, hu, rfl⟩ := cycle_cases h
  · simp
  · simpa using exec_keeps_more hu

end Sys2Proof.Machine
end

section
/-! The invariant (Safety.Inv) is kept by each operation, and so by every step; under the source's literals it gives
the ranges of R23, R100 and R105. -/

namespace Sys2Proof.Safety

open Sys2Proof.Machine

variable {s t : State}

/-! ### Events and main-loop entry -/

/-- The invariant does not speak of the schedule. -/
theorem inv_nextMove (h : Inv s) : Inv (nextMove s).2 := by
  obtain ⟨ts, d, hs⟩ := nextMove_state s
  rw [hs]
  exact { h with }

theorem inv_rxPush (b : Byte) (h : Inv s) : Inv (rxPush b s) := by
  have hq := rxPush_length_le b h.queue
  obtain ⟨q, d, hs⟩ := rxPush_state b s
  rw [hs] at hq ⊢
  exact { h with queue := hq }

theorem inv_rxFlush (h : Inv s) : Inv (rxFlush s) :=
  { h with queue := Nat.zero_le _ }

/-- In BOOT the output registers may take any values of their widths (R242). -/
theorem inv_bootOutputs (hp : s.phase = .boot) (h : Inv s) : Inv (bootOutputs s) := by
  have hboot : ∀ {P : Prop}, s.phase = .run → P := fun hr => (not_boot_of_run hr hp).elim
  obtain ⟨-, -, hlive, -⟩ := h.bootQuiet hp
  exact { h with
    counts := ⟨levels_length_iff.2 (fitChannels_more_length _ _), bits_length_iff.2 (fitOvf_more_length _ _)⟩
    levels := fitChannels_levels _ _
    percent := hboot
    load := hboot
    overflow := hboot
    unmapped := hboot
    liveActive := fun hl => nomatch hlive.symm.trans hl }

/-- A tick in BOOT counts in TIME and towards BOOT_TICKS alike, and comes only while main-loop entry is not due. -/
theorem inv_tick (hd : entryDue s = false) (h : Inv s) : Inv (tick s) := by
  have htime : (s.time + 1) % 2 ^ s.cfg.timeW < 2 ^ s.cfg.timeW := Nat.mod_lt _ (Nat.two_pow_pos _)
  cases hp : s.phase with
  | run =>
    rw [tick_of_run hp]
    exact { h with time := htime, bootTime := fun hb => (not_boot_of_run hp hb).elim }
  | boot =>
    rw [tick_of_boot hp]
    have hlt : s.bootElapsed < s.cfg.bootTicks := by
      by_contra hle
      simp [entryDue_iff.2 ⟨hp, Nat.le_of_not_lt hle⟩] at hd
    have hcount : (s.time + 1) % 2 ^ s.cfg.timeW = (s.bootElapsed + 1) % 2 ^ s.cfg.timeW := by
      rw [h.bootTime hp, Nat.mod_add_mod]
    exact inv_bootOutputs hp { h with time := htime, bootTime := fun _ => hcount, bootLength := fun _ => hlt }

theorem inv_blockReset (h : Inv s) : Inv (blockReset s) := by
  have hpow : 0 < 2 ^ s.cfg.timeW := Nat.two_pow_pos _
  refine inv_bootOutputs rfl { h with
    queue := Nat.zero_le _
    time := hpow
    lastLive := hpow
    frameBytes := frame_bytes_length_of (fitFrame_more_length _ _)
    percent := nofun
    load := nofun
    overflow := nofun
    unmapped := nofun
    status := ⟨nofun, nofun⟩
    liveActive := nofun
    bootQuiet := fun _ => ⟨rfl, rfl, rfl, rfl⟩
    bootTime := fun _ => (Nat.zero_mod _).symm
    bootLength := fun _ => Nat.zero_le _ }

theorem inv_tornWrite {k : Fin 8} (h : Inv s) (ht : tornWrite k s = .next t) : Inv t := by
  obtain ⟨m, d, rfl, hwf⟩ := tornWrite_is_reset ht
  exact inv_blockReset { h with storage := hwf h.storage }

/-- Main-loop entry clears every level and bit, and no live cycle has been before it (R243). -/
theorem inv_enterMainLoop (hp : s.phase = .boot) (h : Inv s) : Inv (enterMainLoop s) := by
  obtain ⟨-, -, hlive, -⟩ := h.bootQuiet hp
  exact { h with
    counts := ⟨levels_length_iff.2 List.length_replicate, bits_length_iff.2 List.length_replicate⟩
    levels := fun l hl => by
      obtain rfl : l = 0 := List.eq_of_mem_replicate (n := nChan s.cfg.literals) hl
      exact Nat.two_pow_pos _
    percent := fun _ => ⟨Nat.zero_le _, Nat.zero_le _⟩
    load := fun _ => ⟨Nat.zero_le _, Nat.zero_le _, Nat.zero_le _⟩
    overflow := fun _ => ⟨nofun, nofun, nofun⟩
    unmapped := fun _ => ⟨fun _ => List.eq_of_mem_replicate, by simp⟩
    liveActive := fun hl => nomatch hlive.symm.trans hl
    bootQuiet := nofun
    bootTime := nofun
    bootLength := nofun }

/-! ### Channel registers -/

theorem levels_withLevel_length (r : Channels) (c : Channel) (x : Nat) :
    (Channels.levels (Channels.withLevel r c x)).length = (Channels.levels r).length := by
  rw [levels_withLevel, List.length_set]

theorem bits_withBit_length (o : Overflows) (c : LoadChannel) (b : Bool) :
    (Overflows.bits (Overflows.withBit o c b)).length = (Overflows.bits o).length := by cases c <;> rfl

/-- Levels of RAW_W bits stay such when one of them is set to a RAW_W-bit number (R23). -/
theorem levels_withLevel_lt {r : Channels} {x w : Nat} (c : Channel) (hx : x < 2 ^ w)
    (h : ∀ l ∈ Channels.levels r, l < 2 ^ w) : ∀ l ∈ Channels.levels (Channels.withLevel r c x), l < 2 ^ w := by
  intro l hl
  rw [levels_withLevel] at hl
  obtain hl | rfl := List.mem_or_eq_of_mem_set hl
  · exact h l hl
  · exact hx

/-- The level mapPercent gives is in the range of a percent channel (R100, R145, R146). -/
theorem inv_setLevel_percent {c : Channel} (v : Byte) (hc : c = .cpu ∨ c = .mem) (h : Inv s) :
    Inv (setLevel c (mapPercent s.cfg.literals s.cfg.mapRound v) s) := by
  have hle := mapPercent_le s.cfg.literals s.cfg.mapRound v
  obtain ⟨hchan, hovf⟩ := h.counts
  have hlevels := levels_withLevel_lt c (mapPercent_lt s.cfg.literals s.cfg.mapRound v) h.levels
  obtain rfl | rfl := hc
  · exact { h with
      counts := ⟨(levels_withLevel_length ..).trans hchan, hovf⟩
      levels := hlevels
      percent := fun hr => ⟨hle, (h.percent hr).2⟩ }
  · exact { h with
      counts := ⟨(levels_withLevel_length ..).trans hchan, hovf⟩
      levels := hlevels
      percent := fun hr => ⟨(h.percent hr).1, hle⟩ }

/-- The level and bit mapLoadAverage gives are in the range of a load average channel, and the bit is set only over
the saturated level (R105, R147 to R149). -/
theorem inv_setLevel_load (c : LoadChannel) (v : Byte) (h : Inv s) :
    Inv (setOvf c (mapLoadAverage s.cfg.literals s.cfg.mapRound v).2
      (setLevel (LoadChannel.channel c) (mapLoadAverage s.cfg.literals s.cfg.mapRound v).1 s)) := by
  have hle := mapLoadAverage_le s.cfg.literals s.cfg.mapRound v
  have hsat := mapLoadAverage_of_overflow (L := s.cfg.literals) (m := s.cfg.mapRound) (v := v)
  obtain ⟨hchan, hovf⟩ := h.counts
  have hlevels := levels_withLevel_lt (LoadChannel.channel c)
    (mapLoadAverage_lt s.cfg.literals s.cfg.mapRound v) h.levels
  cases c with
  | la1 => exact { h with
      counts := ⟨(levels_withLevel_length ..).trans hchan, (bits_withBit_length ..).trans hovf⟩
      levels := hlevels
      load := fun hr => ⟨hle, (h.load hr).2⟩
      overflow := fun hr => ⟨hsat, (h.overflow hr).2⟩ }
  | la5 => exact { h with
      counts := ⟨(levels_withLevel_length ..).trans hchan, (bits_withBit_length ..).trans hovf⟩
      levels := hlevels
      load := fun hr => have ⟨hla1, _, hla15⟩ := h.load hr; ⟨hla1, hle, hla15⟩
      overflow := fun hr => have ⟨hla1, _, hla15⟩ := h.overflow hr; ⟨hla1, hsat, hla15⟩ }
  | la15 => exact { h with
      counts := ⟨(levels_withLevel_length ..).trans hchan, (bits_withBit_length ..).trans hovf⟩
      levels := hlevels
      load := fun hr => have ⟨hla1, hla5, _⟩ := h.load hr; ⟨hla1, hla5, hle⟩
      overflow := fun hr => have ⟨hla1, hla5, _⟩ := h.overflow hr; ⟨hla1, hla5, hsat⟩ }

/-! ### Cycles (R193)

Between dispatch and watchdog a live command may have been run while ACTIVE is low; the invariant then
holds but for its clause `liveActive`, that is, it holds of the state with ACTIVE raised. -/

/-- Reporting a command as handled, and live only if handled, keeps the invariant up to ACTIVE. -/
theorem inv_report {a b : Bool} (hp : s.phase = .run) (hd : s.dispatched = true) (hab : b = true → a = true)
    (h : Inv s) : Inv { report a b s with active := true } :=
  { h with
    status := ⟨hab, fun _ => hd⟩
    liveActive := fun _ => rfl
    bootQuiet := fun hb => (not_boot_of_run hp hb).elim }

theorem inv_exec {i : Instr} (h : Inv s) (hp : s.phase = .run) (hd : s.dispatched = true)
    (ht : exec i s = .next t) : Inv { t with active := true } := by
  obtain ⟨u, hu, hc⟩ := exec_cases i s
  cases hu.symm.trans ht
  cases i with
  | getname | getid | nop => subst hc; exact inv_report (s := { s with tx := _ }) hp hd nofun { h with }
  | setid tok =>
    obtain ⟨m, rfl, hwf, -⟩ := hc
    exact inv_report (s := { s with nvm := m }) (a := true) hp hd nofun { h with storage := hwf h.storage }
  | cpu v => subst hc; exact inv_report hp hd id (inv_setLevel_percent v (.inl rfl) h)
  | mem v => subst hc; exact inv_report hp hd id (inv_setLevel_percent v (.inr rfl) h)
  | la1 v => subst hc; exact inv_report hp hd id (inv_setLevel_load .la1 v h)
  | la5 v => subst hc; exact inv_report hp hd id (inv_setLevel_load .la5 v h)
  | la15 v => subst hc; exact inv_report hp hd id (inv_setLevel_load .la15 v h)

/-- The watchdog step makes ACTIVE agree with LIVE (R171, R174). -/
theorem inv_watchdog (hp : s.phase = .run) (h : Inv { s with active := true }) : Inv (watchdog s) := by
  unfold watchdog
  split_ifs with hl
  · exact { h with lastLive := h.time, bootQuiet := fun hb => (not_boot_of_run hp hb).elim }
  · exact { h with liveActive := fun hlive => absurd hlive hl }
  · exact { h with liveActive := fun hlive => absurd hlive hl }

/-- Latching a frame takes it off the queue and sets DISPATCHED (R191). -/
theorem inv_latch {f : Frame} {rest : List Byte} (hp : s.phase = .run)
    (hq : takeFrame s.cfg.literals s.rxq = some (f, rest)) (h : Inv s) :
    Inv { s with frame := f, rxq := rest, dispatched := true } := by
  obtain ⟨-, -, hrest⟩ := takeFrame_spec hq
  obtain ⟨-, hmore⟩ := takeFrame_eq_some.1 hq
  have hlen : rest.length ≤ s.rxq.length := by rw [hrest, List.length_drop]; exact Nat.sub_le _ _
  exact { h with
    queue := hlen.trans h.queue
    frameBytes := frame_bytes_length_of hmore
    status := ⟨h.status.1, fun _ => rfl⟩
    bootQuiet := fun hb => (not_boot_of_run hp hb).elim }

theorem inv_cycle (hp : s.phase = .run) (h : Inv s) (ht : cycle s = .next t) : Inv t := by
  obtain ⟨-, rfl⟩ | ⟨f, rest, u, hq, hu, rfl⟩ := cycle_cases ht
  · exact inv_watchdog hp { h with
      status := ⟨nofun, nofun⟩
      liveActive := nofun
      bootQuiet := fun hb => (not_boot_of_run hp hb).elim }
  · obtain ⟨-, hphase, -⟩ := exec_leaves hu
    exact inv_watchdog (hphase.trans hp) (inv_exec (inv_latch hp hq h) hp rfl hu)

/-- Settles O55, by cases on the step's move: taking the move off the schedule keeps the invariant, and so does each
operation. -/
theorem stepKeepsInvariant : Obligations.StepKeepsInvariant := by
  intro s t h hstep
  have hn := inv_nextMove h
  obtain ⟨-, hdue, rfl⟩ | ⟨-, -, rfl⟩ | ⟨b, -, rfl⟩ | ⟨-, hdue, rfl⟩ | ⟨-, rfl⟩ | ⟨-, rfl⟩ | ⟨k, -, htorn⟩ |
    ⟨-, -, rfl⟩ | ⟨-, hrun, hcycle⟩ := step_cases hstep
  · exact inv_enterMainLoop ((nextMove_phase s).trans (phase_boot_of_entryDue hdue)) hn
  · exact hn
  · exact inv_rxPush b hn
  · exact inv_tick ((nextMove_entryDue s).trans hdue) hn
  · exact inv_rxFlush hn
  · exact inv_blockReset hn
  · exact inv_tornWrite hn htorn
  · exact hn
  · exact inv_cycle ((nextMove_phase s).trans hrun) hn hcycle

/-! ### The ranges under the source's literals -/

/-- Under the source's literals the rescale of 255 is at most 650 (R100). -/
theorem rescale_255_le (m : Config.RoundMode) : rescale Config.sourceLiterals m 255 ≤ 650 := by
  have := rescale_bounds m 255
  omega

/-- Under the source's literals the rescale of LA_MAX is 255 in every rounding mode (R105). -/
theorem rescale_laMax (m : Config.RoundMode) :
    rescale Config.sourceLiterals m Config.sourceLiterals.laMax = 255 := by
  have := rescale_bounds m Config.sourceLiterals.laMax
  have hla : Config.sourceLiterals.laMax = 100 := rfl
  omega

/-- Under the source's literals a load average channel saturates at 255 (R105). -/
theorem saturated_source {cfg : Config.Params} (h : cfg.literals = Config.sourceLiterals) : saturated cfg = 255 := by
  unfold saturated
  rw [h, rescale_laMax]
  rfl

/-- Settles O57: the clauses of the invariant, with the numbers the source's literals give. -/
theorem sourceLiteralRanges : Obligations.SourceLiteralRanges := by
  intro s hL h hrun
  obtain ⟨hcpu, hmem⟩ := h.percent hrun
  have hload := h.load hrun
  have hovf := h.overflow hrun
  obtain ⟨hlevels, hbits⟩ := h.counts
  rw [levels_length_iff, hL] at hlevels
  rw [bits_length_iff, hL] at hbits
  rw [hL] at hcpu hmem
  rw [hL, rescale_laMax] at hload
  rw [saturated_source hL] at hovf
  have hpct := rescale_255_le s.cfg.mapRound
  obtain ⟨hla1, hla5, hla15⟩ := hload
  obtain ⟨hovf1, hovf5, hovf15⟩ := hovf
  exact ⟨hcpu.trans hpct, hmem.trans hpct, hla1, hla5, hla15, hovf1, hovf5, hovf15,
    List.eq_nil_of_length_eq_zero hlevels, List.eq_nil_of_length_eq_zero hbits⟩

end Sys2Proof.Safety
end

section
/-! What a step can change: TIME, PHASE, TX and the output registers (R28, R33, R31, R23 to R25). -/

namespace Sys2Proof.Safety

open Sys2Proof.Machine

variable {s t : State}

/-! ### TIME (R28) -/

/-- Settles O45, by cases on the step's move: a tick counts, both resets clear TIME, and no other operation
writes it. -/
theorem timeChangesOnlyByTickOrReset : Obligations.TimeChangesOnlyByTickOrReset := by
  intro s t h
  rw [← nextMove_cfg s, ← nextMove_time s]
  obtain ⟨-, -, rfl⟩ | ⟨-, -, rfl⟩ | ⟨b, -, rfl⟩ | ⟨hm, -, rfl⟩ | ⟨-, rfl⟩ | ⟨hm, rfl⟩ | ⟨k, hm, htorn⟩ |
    ⟨-, -, rfl⟩ | ⟨-, -, hcycle⟩ := step_cases h
  · exact .inl (enterMainLoop_time _)
  · exact .inl rfl
  · exact .inl (rxPush_time b _)
  · exact .inr (.inl ⟨hm, tick_time _⟩)
  · exact .inl (rxFlush_time _)
  · exact .inr (.inr ⟨.inl hm, blockReset_time _⟩)
  · obtain ⟨m, d, rfl, -⟩ := tornWrite_is_reset htorn
    exact .inr (.inr ⟨.inr ⟨k, hm⟩, blockReset_time _⟩)
  · exact .inl rfl
  · exact .inl (cycle_keeps_time hcycle)

/-! ### PHASE (R33) -/

/-- A step makes its move in the state with the move taken off the schedule. -/
theorem step_of_move {m : Turn} (hm : moveOf s = m) : step s = takeTurn m (nextMove s).2 := by
  subst hm; rfl

theorem not_resets_of_move {m : Turn} (hm : moveOf s = m) (hreset : m ≠ .event .reset)
    (htorn : ∀ k, m ≠ .event (.tornWrite k)) : ¬ resets s := by
  subst hm
  rintro (h | ⟨k, h⟩)
  · exact hreset h
  · exact htorn k h

/-- A step resets the block into BOOT, or enters the main loop from BOOT, or keeps PHASE. -/
theorem step_phase_cases (h : step s = .next t) :
    (resets s ∧ t.phase = .boot) ∨
    (s.phase = .boot ∧ moveOf s = .enter ∧ t = enterMainLoop (nextMove s).2) ∨
    (¬ resets s ∧ t.phase = s.phase) := by
  rw [← nextMove_phase s]
  obtain ⟨hm, hdue, rfl⟩ | ⟨hm, -, rfl⟩ | ⟨b, hm, rfl⟩ | ⟨hm, -, rfl⟩ | ⟨hm, rfl⟩ | ⟨hm, rfl⟩ | ⟨k, hm, htorn⟩ |
    ⟨hm, -, rfl⟩ | ⟨hm, -, hcycle⟩ := step_cases h
  · exact .inr (.inl ⟨(nextMove_phase s).trans (phase_boot_of_entryDue hdue), hm, rfl⟩)
  · exact .inr (.inr ⟨not_resets_of_move hm nofun nofun, rfl⟩)
  · exact .inr (.inr ⟨not_resets_of_move hm nofun nofun, rxPush_phase b _⟩)
  · exact .inr (.inr ⟨not_resets_of_move hm nofun nofun, tick_phase _⟩)
  · exact .inr (.inr ⟨not_resets_of_move hm nofun nofun, rxFlush_phase _⟩)
  · exact .inl ⟨.inl hm, blockReset_phase _⟩
  · obtain ⟨m, d, rfl, -⟩ := tornWrite_is_reset htorn
    exact .inl ⟨.inr ⟨k, hm⟩, blockReset_phase _⟩
  · exact .inr (.inr ⟨not_resets_of_move hm nofun nofun, rfl⟩)
  · exact .inr (.inr ⟨not_resets_of_move hm nofun nofun, cycle_keeps_phase hcycle⟩)

/-- A cycle scheduled in BOOT does nothing (log 11). -/
theorem step_cycle_in_boot (hp : s.phase = .boot) (hm : moveOf s = .cycle) : step s = .next (nextMove s).2 := by
  simp [step_of_move hm, takeTurn, hp]

/-- Settles O50, by the three things a step can do to PHASE. -/
theorem phaseChangesOnlyByEntryAndReset : Obligations.PhaseChangesOnlyByEntryAndReset := by
  intro s t h
  have hcycle : s.phase = .boot → moveOf s = .cycle → t = (nextMove s).2 := fun hp hm =>
    (Host.Outcome.next.inj ((step_cycle_in_boot hp hm).symm.trans h)).symm
  obtain ⟨hr, ht⟩ | ⟨hp, hm, ht⟩ | ⟨hr, ht⟩ := step_phase_cases h
  · exact ⟨fun _ => ht, fun _ _ => hr, fun _ hrun => (not_boot_of_run hrun ht).elim, hcycle⟩
  · exact ⟨fun hr => absurd hr (not_resets_of_move hm nofun nofun), fun hrun => (not_boot_of_run hrun hp).elim,
      fun _ _ => ⟨hm, ht⟩, hcycle⟩
  · rw [ht]
    exact ⟨fun hr' => absurd hr' hr, fun hrun hboot => (not_boot_of_run hrun hboot).elim,
      fun hboot hrun => (not_boot_of_run hrun hboot).elim, hcycle⟩

/-! ### TX (R31, R62) -/

/-- A step that takes no cycle leaves TX. -/
theorem step_keeps_tx (h : step s = .next t) (hc : ¬ runsCycle s) : t.tx = s.tx := by
  rw [← nextMove_tx s]
  obtain ⟨-, -, rfl⟩ | ⟨-, -, rfl⟩ | ⟨b, -, rfl⟩ | ⟨-, -, rfl⟩ | ⟨-, rfl⟩ | ⟨-, rfl⟩ | ⟨k, -, htorn⟩ |
    ⟨-, -, rfl⟩ | ⟨hm, hrun, -⟩ := step_cases h
  · exact enterMainLoop_tx _
  · rfl
  · exact rxPush_tx b _
  · exact tick_tx _
  · exact rxFlush_tx _
  · exact blockReset_tx _
  · obtain ⟨m, d, rfl, -⟩ := tornWrite_is_reset htorn
    exact blockReset_tx _
  · rfl
  · exact absurd ⟨hrun, hm⟩ hc

/-- A step that takes a cycle is that cycle, made with the move taken off the schedule. -/
theorem step_of_runsCycle (h : runsCycle s) : step s = cycle (nextMove s).2 := by
  obtain ⟨hp, hm⟩ := h
  simp [step_of_move hm, takeTurn, hp]

/-- Settles O52: a step that takes no cycle leaves TX, and a cycle appends what its command emits. -/
theorem responseStreamOnlyGrows : Obligations.ResponseStreamOnlyGrows := by
  intro s t h
  by_cases hc : runsCycle s
  · rw [step_of_runsCycle hc] at h
    obtain ⟨bs, hbs, hop⟩ := cycle_tx h
    simp only [nextMove_cfg, nextMove_rxq, nextMove_tx] at hbs hop
    exact ⟨bs, hbs, fun hne => ⟨hc, hop hne⟩⟩
  · exact ⟨[], (step_keeps_tx h hc).trans (List.append_nil _).symm, fun hne => absurd rfl hne⟩

/-! ### CHAN_RAW and OVF (R23 to R25) -/

/-- In RUN a step that is no reset and takes no cycle leaves the output registers. -/
theorem step_keeps_outputs (hrun : s.phase = .run) (h : step s = .next t) (hr : ¬ resets s) (hc : ¬ runsCycle s) :
    t.chanRaw = s.chanRaw ∧ t.ovf = s.ovf := by
  rw [← nextMove_chanRaw s, ← nextMove_ovf s]
  obtain ⟨-, hdue, rfl⟩ | ⟨-, -, rfl⟩ | ⟨b, -, rfl⟩ | ⟨-, -, rfl⟩ | ⟨-, rfl⟩ | ⟨hm, rfl⟩ | ⟨k, hm, -⟩ |
    ⟨-, hboot, -⟩ | ⟨hm, -, -⟩ := step_cases h
  · exact (not_boot_of_run hrun (phase_boot_of_entryDue hdue)).elim
  · exact ⟨rfl, rfl⟩
  · exact ⟨rxPush_chanRaw b _, rxPush_ovf b _⟩
  · rw [tick_of_run ((nextMove_phase s).trans hrun)]
    exact ⟨rfl, rfl⟩
  · exact ⟨rfl, rfl⟩
  · exact absurd (.inl hm) hr
  · exact absurd (.inr ⟨k, hm⟩) hr
  · exact (not_boot_of_run hrun hboot).elim
  · exact absurd ⟨hrun, hm⟩ hc

/-- In RUN, and in no reset, a level changes only in a cycle whose frame has that channel's opcode. -/
theorem step_level (hrun : s.phase = .run) (h : step s = .next t) (hr : ¬ resets s) (c : Channel)
    (hne : Channels.level t.chanRaw c ≠ Channels.level s.chanRaw c) :
    runsCycle s ∧ ∃ f rest, takeFrame s.cfg.literals s.rxq = some (f, rest) ∧ f.op = channelOpcode c := by
  by_cases hc : runsCycle s
  · rw [step_of_runsCycle hc] at h
    exact ⟨hc, by simpa using cycle_level h (by simpa using hne)⟩
  · exact absurd (congrArg (Channels.level · c) (step_keeps_outputs hrun h hr hc).1) hne

/-- In RUN, and in no reset, an overflow bit changes only in a cycle whose frame has that channel's opcode. -/
theorem step_bit (hrun : s.phase = .run) (h : step s = .next t) (hr : ¬ resets s) (c : LoadChannel)
    (hne : Overflows.bit t.ovf c ≠ Overflows.bit s.ovf c) :
    runsCycle s ∧ ∃ f rest, takeFrame s.cfg.literals s.rxq = some (f, rest) ∧
      f.op = channelOpcode (LoadChannel.channel c) := by
  by_cases hc : runsCycle s
  · rw [step_of_runsCycle hc] at h
    exact ⟨hc, by simpa using cycle_bit h (by simpa using hne)⟩
  · exact absurd (congrArg (Overflows.bit · c) (step_keeps_outputs hrun h hr hc).2) hne

/-- In RUN, and in no reset, no step writes a channel or a bit outside the index map (R24). -/
theorem step_keeps_more (hrun : s.phase = .run) (h : step s = .next t) (hr : ¬ resets s) :
    t.chanRaw.more = s.chanRaw.more ∧ t.ovf.more = s.ovf.more := by
  by_cases hc : runsCycle s
  · rw [step_of_runsCycle hc] at h
    simpa using cycle_keeps_more h
  · obtain ⟨hchan, hovf⟩ := step_keeps_outputs hrun h hr hc
    exact ⟨congrArg Channels.more hchan, congrArg Overflows.more hovf⟩

/-- Settles O53, channel by channel and bit by bit. -/
theorem outputsHoldBetweenCommands : Obligations.OutputsHoldBetweenCommands := by
  intro s t hrun h hr
  have hlevel := step_level hrun h hr
  have hbit := step_bit hrun h hr
  exact ⟨hlevel .cpu, hlevel .mem, fun h => h.elim (hlevel .la1) (hbit .la1),
    fun h => h.elim (hlevel .la5) (hbit .la5), fun h => h.elim (hlevel .la15) (hbit .la15), step_keeps_more hrun h hr⟩

end Sys2Proof.Safety
end

section
/-! Storage (20_memory.md): one access, a second write of what is there already, and which steps write it. -/

namespace Sys2Proof.Machine

/-! ### A write of what is there already leaves the storage list (R58) -/

namespace Memory

variable {m : List Host.Cell} {a : Nat} {v : Byte}

theorem mem_of_lookup (h : lookup m a = some v) : (a, v) ∈ m := by
  induction m with
  | nil => cases h
  | cons c m ih =>
    unfold lookup at h
    split_ifs at h with hx
    · cases h
      subst hx
      exact List.mem_cons_self
    · exact List.mem_cons_of_mem _ (ih h)

theorem lt_of_mem_risesAbove {lo : Nat} {c : Host.Cell} (hm : risesAbove lo m = true) (hc : c ∈ m) : lo < c.1 := by
  induction m generalizing lo with
  | nil => cases hc
  | cons d m ih =>
    simp only [risesAbove, Bool.and_eq_true, decide_eq_true_eq] at hm
    rcases List.mem_cons.1 hc with rfl | hc
    · exact hm.1
    · exact hm.1.trans (ih hm.2 hc)

theorem erase_of_lookup_none (h : lookup m a = none) : erase m a = m := by
  induction m with
  | nil => rfl
  | cons c m ih =>
    unfold lookup at h
    split_ifs at h with hx
    rw [erase_cons, if_neg hx, ih h]

/-- In a rising list, putting a byte where it is listed already leaves the list. -/
theorem insert_of_lookup (hm : rises m = true) (h : lookup m a = some v) : insert m a v = m := by
  induction m with
  | nil => cases h
  | cons c m ih =>
    obtain ⟨x, w⟩ := c
    unfold lookup at h
    split_ifs at h with hx
    · cases h
      subst hx
      simp [insert]
    · have hlt : x < a := lt_of_mem_risesAbove hm (mem_of_lookup h)
      simp [insert, hx, hlt.le, ih (rises_of_risesAbove hm) h]

/-- In canonical form, writing the byte an address reads as leaves the list. -/
theorem write_self {cfg : Config.Params} (hm : wf cfg m = true) (h : read cfg m a = v) : write cfg m a v = m := by
  obtain ⟨hrises, hlisted⟩ := (wf_iff cfg).1 hm
  unfold read at h
  cases hl : lookup m a with
  | none =>
    have hv : v = nvmInit cfg a := by simpa [hl] using h.symm
    rw [write, if_pos hv, erase_of_lookup_none hl]
  | some w =>
    obtain rfl : w = v := by simpa [hl] using h
    have hv : w ≠ nvmInit cfg a := (hlisted _ (mem_of_lookup hl)).2
    rw [write, if_neg hv, insert_of_lookup hrises hl]

end Memory

variable {s t : State}

/-- From canonical storage, writing the byte that is there already leaves the state. -/
theorem memWrite_self {a : Nat} {v : Byte} (hwf : Memory.wf s.cfg s.nvm = true) (ha : a < nvmSize s.cfg)
    (h : Memory.read s.cfg s.nvm a = v) : memWrite s a v = .next s := by
  rw [memWrite_of_lt v ha, Memory.write_self hwf h]

/-- From canonical storage, storing the bytes that are there already leaves the state. -/
theorem storeFrom_self {bs : List Byte} {a : Nat} (hwf : Memory.wf s.cfg s.nvm = true)
    (hlen : a + bs.length ≤ nvmSize s.cfg)
    (h : ∀ (k : Nat) (v : Byte), bs[k]? = some v → Memory.read s.cfg s.nvm (a + k) = v) :
    storeFrom a bs s = .next s := by
  induction bs generalizing a with
  | nil => rfl
  | cons v bs ih =>
    rw [List.length_cons] at hlen
    have hrest : storeFrom (a + 1) bs s = .next s :=
      ih (by omega) fun k w hk => by simpa [Nat.add_assoc, Nat.add_comm 1 k] using h (k + 1) w (by simpa using hk)
    have hfirst : memWrite s a v = .next s := memWrite_self hwf (by omega) (h 0 v rfl)
    rw [storeFrom, hfirst]
    exact hrest

/-- From canonical storage, writing the token that is there already leaves the state (R122). -/
theorem writeIdentity_self {tok : Token} (hwf : Memory.wf s.cfg s.nvm = true)
    (h : ∀ (k : Nat) (v : Byte), tok.bytes[k]? = some v → Memory.read s.cfg s.nvm k = v) :
    writeIdentity tok s = .next s :=
  storeFrom_self hwf (by simpa [token_bytes_length] using eight_le_nvmSize s.cfg) (by simpa using h)

/-- Settles O16: SETID leaves its token in canonical storage, and writing it there again leaves the state. -/
theorem sameTokenAgainChangesNothing : Obligations.SameTokenAgainChangesNothing := by
  intro s tok hwf
  obtain ⟨m, hm, hkeep, -, hsame⟩ := execSetid_eq tok s
  refine ⟨_, hm, ?_⟩
  change execSetid tok _ = _
  rw [execSetid, writeIdentity_self (hkeep hwf) hsame]
  rfl

/-! ### One access (R51, R56) -/

theorem memRead_of_le {a : Nat} (h : nvmSize s.cfg ≤ a) : memRead s a = .fault (.noSuchStorage a) :=
  if_neg (Nat.not_lt.2 h)

theorem memWrite_of_le {a : Nat} (v : Byte) (h : nvmSize s.cfg ≤ a) : memWrite s a v = .fault (.noSuchStorage a) :=
  if_neg (Nat.not_lt.2 h)

/-- Under the same parameters an address reads the same where the storage lists do. -/
theorem memRead_congr_read {a : Nat} (hc : t.cfg = s.cfg)
    (hr : Memory.read s.cfg t.nvm a = Memory.read s.cfg s.nvm a) : memRead t a = memRead s a := by
  unfold memRead; rw [hc, hr]

/-- Settles O13, by the laws of one read after one write. -/
theorem storageReadsAndWrites : Obligations.StorageReadsAndWrites := by
  intro s a v
  refine ⟨eight_le_nvmSize s.cfg, fun h => ⟨⟨_, memRead_of_lt h⟩, _, memWrite_of_lt v h, ?_, fun a' ha' => ?_, rfl⟩,
    fun h => ⟨memRead_of_le h, memWrite_of_le v h⟩⟩
  · rwa [memRead_of_lt, Memory.read_write_same]
  · exact memRead_congr_read rfl (Memory.read_write_other s.cfg s.nvm v ha')

/-! ### Which operations write storage, and where (R51, R52) -/

@[simp] theorem rxPush_nvm (b : Byte) (s : State) : (rxPush b s).nvm = s.nvm := by
  obtain ⟨q, d, h⟩ := rxPush_state b s; rw [h]
@[simp] theorem tick_nvm (s : State) : (tick s).nvm = s.nvm := by unfold tick; split <;> rfl

/-- A command leaves storage, unless it is a SETID, which leaves it from address 8 on. -/
theorem exec_storage {i : Instr} (h : exec i s = .next t) :
    t.nvm = s.nvm ∨ (∃ tok, i = .setid tok) ∧ ∀ a, 8 ≤ a → memRead t a = memRead s a := by
  obtain ⟨u, hu, hc⟩ := exec_cases i s
  cases hu.symm.trans h
  cases i with
  | setid tok =>
    obtain ⟨m, rfl, -, hother, -⟩ := hc
    exact .inr ⟨⟨tok, rfl⟩, fun a ha => memRead_congr_read rfl (hother a ha)⟩
  | getname | getid | cpu | mem | la1 | la5 | la15 | nop => subst hc; exact .inl rfl

/-- A cycle leaves storage, unless it dispatches SETID, which leaves it from address 8 on. -/
theorem cycle_storage (h : cycle s = .next t) :
    t.nvm = s.nvm ∨ (∃ tok rest, decode s.cfg.literals s.rxq = .ok (.setid tok, rest)) ∧
      ∀ a, 8 ≤ a → memRead t a = memRead s a := by
  obtain ⟨-, rfl⟩ | ⟨f, rest, u, hq, hu, rfl⟩ := cycle_cases h
  · exact .inl (watchdog_nvm _)
  · obtain hkeep | ⟨⟨tok, hd⟩, hhigh⟩ := exec_storage hu
    · exact .inl ((watchdog_nvm u).trans hkeep)
    · exact .inr ⟨⟨tok, rest, decode_eq_ok.2 ⟨f, hq, hd⟩⟩,
        fun a ha => (memRead_congr (watchdog_cfg u) (watchdog_nvm u) a).trans (hhigh a ha)⟩

/-- A torn write leaves storage, unless it interrupts a SETID, and then it leaves it from address 8 on. -/
theorem tornWrite_storage {k : Fin 8} (h : tornWrite k s = .next t) :
    t.nvm = s.nvm ∨ (s.phase = .run ∧ ∃ tok rest, decode s.cfg.literals s.rxq = .ok (.setid tok, rest)) ∧
      ∀ a, 8 ≤ a → memRead t a = memRead s a := by
  obtain ⟨u, hu, hc⟩ := tornWrite_cases k s
  cases hu.symm.trans h
  obtain ⟨rfl, -⟩ | ⟨f, rest, tok, m, hp, hq, hd, rfl, -, hother, -⟩ := hc
  · exact .inl (blockReset_nvm _)
  · exact .inr ⟨⟨hp, tok, rest, decode_eq_ok.2 ⟨f, hq, hd⟩⟩,
      fun a ha => memRead_congr_read rfl (hother a (k.isLt.trans_le ha))⟩

end Sys2Proof.Machine

namespace Sys2Proof.Safety

open Sys2Proof.Machine

variable {s t : State}

/-- A step leaves storage, unless it dispatches or interrupts a SETID, and then it leaves it from address 8 on. -/
theorem step_storage (h : step s = .next t) :
    t.nvm = s.nvm ∨ writesStorage s ∧ ∀ a, 8 ≤ a → memRead t a = memRead s a := by
  have hread := memRead_congr (nextMove_cfg s) (nextMove_nvm s)
  rw [← nextMove_nvm s]
  simp only [← hread]
  obtain ⟨-, -, rfl⟩ | ⟨-, -, rfl⟩ | ⟨b, -, rfl⟩ | ⟨-, -, rfl⟩ | ⟨-, rfl⟩ | ⟨-, rfl⟩ | ⟨k, hm, htorn⟩ |
    ⟨-, -, rfl⟩ | ⟨hm, hrun, hcycle⟩ := step_cases h
  · exact .inl (enterMainLoop_nvm _)
  · exact .inl rfl
  · exact .inl (rxPush_nvm b _)
  · exact .inl (tick_nvm _)
  · exact .inl (rxFlush_nvm _)
  · exact .inl (blockReset_nvm _)
  · refine (tornWrite_storage htorn).imp_right fun ⟨⟨hrun, hsetid⟩, hhigh⟩ => ⟨⟨?_, ?_, .inr ⟨k, hm⟩⟩, hhigh⟩
    · simpa using hrun
    · simpa using hsetid
  · exact .inl rfl
  · refine (cycle_storage hcycle).imp_right fun ⟨hsetid, hhigh⟩ => ⟨⟨hrun, ?_, .inl hm⟩, hhigh⟩
    simpa using hsetid

/-- Settles O18: a step that changes storage is one that writes it, and leaves it from address 8 on. -/
theorem storageChangesOnlyBySetid : Obligations.StorageChangesOnlyBySetid := by
  intro s t h
  obtain hkeep | ⟨hwrites, hhigh⟩ := step_storage h
  · exact ⟨fun a hne => absurd (memRead_congr (parametersConstant s t h) hkeep a) hne, fun _ => hkeep⟩
  · exact ⟨fun a hne => Nat.lt_of_not_le fun ha => hne (hhigh a ha), fun hn => absurd hwrites hn⟩

end Sys2Proof.Safety
end

section
/-! Encoding (30_encoding.md R73 to R79): the opcode map row by row, its inverse, and what a command ignores of its
frame. -/

namespace Sys2Proof

theorem unassigned_iff {op : Byte} : unassigned op = true ↔ (3 ≤ op.toNat ∧ op.toNat ≤ 9) ∨ 15 ≤ op.toNat := by
  simp [unassigned]

/-- An unassigned opcode is NOP's, and the command keeps it (R76). -/
theorem decodeFrame_of_unassigned {f : Frame} (h : unassigned f.op = true) : decodeFrame f = .nop f.op := by
  unfold decodeFrame
  split_ifs with hop hop hop hop hop hop hop hop
  case neg => rfl
  all_goals simp [hop, unassigned] at h

/-- The eight assigned opcodes and the unassigned ones are all there are (R75, R76). -/
theorem opcode_cases (op : Byte) :
    unassigned op = true ∨ op = 0#8 ∨ op = 1#8 ∨ op = 2#8 ∨ op = 10#8 ∨ op = 11#8 ∨ op = 12#8 ∨ op = 13#8 ∨
      op = 14#8 := by
  rw [unassigned_iff]
  bv_omega

/-- The opcodes whose command takes FRAME[1] alone (R73). -/
theorem value_opcode_cases {op : Byte} (h10 : 10 ≤ op.toNat) (h14 : op.toNat ≤ 14) :
    op = 10#8 ∨ op = 11#8 ∨ op = 12#8 ∨ op = 13#8 ∨ op = 14#8 := by
  bv_omega

/-- Every frame decodes to a command that some frame holds (R77). -/
theorem decodeFrame_wf (f : Frame) : (decodeFrame f).wf = true := by
  obtain ⟨op, p, e⟩ := f
  obtain h | rfl | rfl | rfl | rfl | rfl | rfl | rfl | rfl := opcode_cases op
  · rwa [decodeFrame_of_unassigned h]
  all_goals rfl

/-- The opcode map undoes the assembler (R75, R79). -/
theorem decodeFrame_encodeFrame (L : Config.Literals) {i : Instr} (h : i.wf = true) :
    decodeFrame (encodeFrame L i) = i := by
  cases i
  case nop op => exact decodeFrame_of_unassigned h
  all_goals rfl

/-- A command takes nothing of its frame but the opcode and, where it is 10 to 14, FRAME[1]; SETID, which takes the
whole token, is left out (R73, R74). -/
theorem decodeFrame_congr {f g : Frame} (hop : f.op = g.op)
    (h : f.op = 0#8 ∨ f.op = 1#8 ∨ unassigned f.op = true ∨
      (10 ≤ f.op.toNat ∧ f.op.toNat ≤ 14 ∧ f.payload.t0 = g.payload.t0)) :
    decodeFrame f = decodeFrame g := by
  obtain ⟨op, p, e⟩ := f
  obtain ⟨_, p', e'⟩ := g
  cases hop
  obtain rfl | rfl | hun | ⟨h10, h14, hv⟩ := h
  · rfl
  · rfl
  · rw [decodeFrame_of_unassigned hun, decodeFrame_of_unassigned (f := ⟨op, p', e'⟩) hun]
  · obtain rfl | rfl | rfl | rfl | rfl := value_opcode_cases h10 h14
    · exact congrArg Instr.cpu hv
    · exact congrArg Instr.mem hv
    · exact congrArg Instr.la1 hv
    · exact congrArg Instr.la5 hv
    · exact congrArg Instr.la15 hv

/-- Settles O1: cutting the command's own frame off gives it and the bytes after it, and the opcode map undoes the
assembler. -/
theorem decodeOfEncode : Obligations.DecodeOfEncode := fun L i rest h =>
  decode_eq_ok.2 ⟨encodeFrame L i, takeFrame_append (encodeFrame_more L i) rest, decodeFrame_encodeFrame L h⟩

/-- Settles O2: FRAME_LEN bytes start with a frame and every frame decodes; from fewer no frame can be cut. -/
theorem everyFrameDecodes : Obligations.EveryFrameDecodes := by
  refine ⟨rfl, fun L bs => ⟨fun h => ?_, fun h => ?_⟩⟩
  · obtain ⟨f, hf, -⟩ := exists_takeFrame h
    exact ⟨decodeFrame f, decodeFrame_wf f, decode_eq_ok.2 ⟨f, hf, rfl⟩⟩
  · simp [decode, takeFrame_eq_none.2 h]

/-- Settles O4: the two frames hold the same command. -/
theorem ignoredPayloadHasNoEffect : Obligations.IgnoredPayloadHasNoEffect := by
  intro f g s hop h
  have hcommand : decodeFrame f = decodeFrame g :=
    decodeFrame_congr hop <| by simpa only [unassigned_iff, or_assoc] using h
  rw [hcommand]

/-- Settles O3: the assigned rows are the map's own, and the rest of the opcodes are unassigned. -/
theorem opcodeMapRows : Obligations.OpcodeMapRows := fun _ _ =>
  ⟨rfl, rfl, rfl, rfl, rfl, rfl, rfl, rfl, fun _ h => decodeFrame_of_unassigned (unassigned_iff.2 h)⟩

/-- Settles O5 by running the decoder on each word. -/
theorem writtenWordsDecode : Obligations.WrittenWordsDecode := ⟨rfl, rfl, rfl, rfl, rfl⟩

end Sys2Proof
end

section
/-! The output mapper (40_output_mapper.md): the rounding modes, both mappings under the source's literals, and the lines
in RUN. -/

namespace Sys2Proof.Machine

/-! ### roundDiv by quotient and remainder (R101) -/

/-- HALF_UP answers the quotient, or one more where the remainder is half the divisor or above. -/
theorem roundDiv_halfUp_eq {n d : Nat} (hd : 0 < d) :
    roundDiv .halfUp n d = if d ≤ 2 * (n % d) then n / d + 1 else n / d := by
  have hr : n % d < d := Nat.mod_lt n hd
  have hn : 2 * n + d = 2 * d * (n / d) + (2 * (n % d) + d) := by
    have := Nat.div_add_mod n d
    linarith
  change (2 * n + d) / (2 * d) = _
  rw [hn, Nat.mul_add_div (by omega)]
  split_ifs with h
  · exact congrArg (n / d + ·) (Nat.div_eq_of_lt_le (by omega) (by omega))
  · exact congrArg (n / d + ·) (Nat.div_eq_of_lt (by omega))

/-- HALF_EVEN, its remainder written with `%`. -/
theorem roundDiv_halfEven_eq (n d : Nat) :
    roundDiv .halfEven n d =
      if 2 * (n % d) < d then n / d
      else if d < 2 * (n % d) then n / d + 1
      else if n / d % 2 = 0 then n / d
      else n / d + 1 := by
  rw [Nat.mod_eq_sub_div_mul]
  rfl

/-- Settles O6, by the equation of each mode. -/
theorem roundDivByMode : Obligations.RoundDivByMode := by
  intro n d hd
  have heven := roundDiv_halfEven_eq n d
  refine ⟨rfl, roundDiv_halfUp_eq hd, ?_, rfl, fun hlow => ?_, fun hhigh => ?_, fun htie hq => ?_, fun htie hq => ?_⟩
  · change (2 * n + 100) / (2 * 100) = _
    omega
  · rw [heven, if_pos hlow]
  · rw [heven, if_neg (by omega), if_pos hhigh]
  · rw [heven, if_neg (by omega), if_neg (by omega), if_pos hq]
  · rw [heven, if_neg (by omega), if_neg (by omega), if_neg (by omega)]

/-- HALF_UP and HALF_EVEN differ exactly at a tie with an even quotient (R103). -/
theorem roundDiv_halfUp_ne_halfEven_iff {n d : Nat} (hd : 0 < d) :
    roundDiv .halfUp n d ≠ roundDiv .halfEven n d ↔ 2 * (n % d) = d ∧ n / d % 2 = 0 := by
  rw [roundDiv_halfUp_eq hd, roundDiv_halfEven_eq]
  split_ifs <;> omega

/-- HALF_UP is one above FLOOR where the remainder is half the divisor or above, and equal to it elsewhere (R103). -/
theorem roundDiv_halfUp_eq_floor_add {n d : Nat} (hd : 0 < d) :
    roundDiv .halfUp n d = roundDiv .floor n d + if d ≤ 2 * (n % d) then 1 else 0 := by
  rw [roundDiv_halfUp_eq hd]
  split_ifs <;> rfl

/-! ### The rescale under the source's literals (R100, R108) -/

theorem rescale_source (m : Config.RoundMode) (x : Nat) :
    rescale Config.sourceLiterals m x = roundDiv m (255 * x) 100 := rfl

/-- No two values share a rescale: 2.55 a step is more than rounding can take away. -/
theorem rescale_source_strictMono (m : Config.RoundMode) : StrictMono (rescale Config.sourceLiterals m) := by
  intro x y h
  obtain ⟨hx, -⟩ := rescale_bounds m x
  obtain ⟨-, hy⟩ := rescale_bounds m y
  omega

theorem rescale_source_zero (m : Config.RoundMode) : rescale Config.sourceLiterals m 0 = 0 := by
  have := rescale_bounds m 0
  omega

theorem rescale_source_hundred (m : Config.RoundMode) : rescale Config.sourceLiterals m 100 = 255 := by
  have := rescale_bounds m 100
  omega

/-! ### mapPercent (R100, R103, R108) -/

/-- Under the source's literals the level register holds the rescale of every byte exactly. -/
theorem mapPercent_source (m : Config.RoundMode) (v : Byte) :
    mapPercent Config.sourceLiterals m v = rescale Config.sourceLiterals m v.toNat :=
  rescale_mod m (Nat.le_of_lt_succ v.isLt)

theorem mapPercent_source_hundred (m : Config.RoundMode) : mapPercent Config.sourceLiterals m 100#8 = 255 :=
  (mapPercent_source m _).trans (rescale_source_hundred m)

/-- Settles O7: the register holds the rescale, which lies within rounding of 2.55 v. -/
theorem mapPercentExact : Obligations.MapPercentExact := by
  intro m v
  have hv := v.isLt
  obtain ⟨hle, hlt⟩ := rescale_bounds m v.toNat
  rw [mapPercent_source]
  exact ⟨rescale_source m _, by omega, fun _ => by omega, fun _ => by omega⟩

/-- Settles O9: the rescale is strictly increasing, and a drive line takes the level's low 8 bits. -/
theorem mapPercentStrictlyIncreasing : Obligations.MapPercentStrictlyIncreasing := by
  refine ⟨fun m v w h => ?_, fun m => ⟨?_, mapPercent_source_hundred m⟩, fun cfg hw => ?_⟩
  · rw [mapPercent_source, mapPercent_source]
    exact rescale_source_strictMono m h
  · exact (mapPercent_source m _).trans (rescale_source_zero m)
  · have hdrive (l : Nat) : driveOf cfg l = l % 2 ^ 8 := by rw [driveOf, hw]
    simp only [hdrive]
    exact ⟨fun m => congrArg (· % 2 ^ 8) (mapPercent_source_hundred m), by decide, by decide⟩

/-- The ties of mapPercent with an even truncated quotient are every fortieth byte from 30 on (R103). -/
theorem even_tie_iff {x : Nat} (hx : x < 256) :
    2 * (255 * x % 100) = 100 ∧ 255 * x / 100 % 2 = 0 ↔ x ∈ [30, 70, 110, 150, 190, 230] := by
  have htie (n : Nat) : 2 * (n % 100) = 100 ∧ n / 100 % 2 = 0 ↔ n % 200 = 50 := by omega
  have hforty : 255 * x % 200 = 50 ↔ x % 40 = 30 := by omega
  rw [htie, hforty]
  constructor
  · intro h
    obtain ⟨k, hk, rfl⟩ : ∃ k < 6, x = 40 * k + 30 := ⟨x / 40, by omega, by omega⟩
    interval_cases k <;> decide
  · intro h
    fin_cases h <;> rfl

/-- Settles O8: the modes differ by the remainder and the parity of the quotient of 255 v by 100. -/
theorem roundingModesDifferAt : Obligations.RoundingModesDifferAt := by
  intro v
  have hup := roundDiv_halfUp_eq_floor_add (n := 255 * v.toNat) (d := 100) (by decide)
  simp only [mapPercent_source, rescale_source]
  refine ⟨by omega, ?_, ?_, fun h => ?_⟩
  · exact (roundDiv_halfUp_ne_halfEven_iff (by decide)).trans (even_tie_iff v.isLt)
  · split_ifs at hup <;> omega
  · rw [hup, if_pos (by omega), Nat.add_sub_cancel]

/-! ### mapLoadAverage (R104, R105) -/

/-- Under the source's literals the level register holds the rescale of the clamped byte exactly. -/
theorem mapLoadAverage_source (m : Config.RoundMode) (v : Byte) :
    mapLoadAverage Config.sourceLiterals m v =
      (rescale Config.sourceLiterals m (min v.toNat 100), decide (100 < v.toNat)) :=
  Prod.ext (rescale_mod m ((Nat.min_le_right _ 100).trans (by decide))) rfl

/-- From v = 100 on the level is 255. -/
theorem mapLoadAverage_source_of_ge (m : Config.RoundMode) {v : Byte} (h : 100 ≤ v.toNat) :
    mapLoadAverage Config.sourceLiterals m v = (255, decide (100 < v.toNat)) := by
  rw [mapLoadAverage_source, Nat.min_eq_right h, rescale_source_hundred]

/-- Settles O10: the clamped byte is the byte itself up to 100 and 100 above. -/
theorem mapLoadAverageClamps : Obligations.MapLoadAverageClamps := by
  intro m v
  rw [mapLoadAverage_source]
  refine ⟨rescale_source m _, ?_, decide_eq_true_iff⟩
  split_ifs with h
  · rw [Nat.min_eq_left h, mapPercent_source]
  · rw [Nat.min_eq_right (by omega), mapPercent_source_hundred, rescale_source_hundred]

/-- Settles O11: the clamped byte is at most 100, where the rescale is 255, and the rescale is nondecreasing. -/
theorem mapLoadAverageSaturates : Obligations.MapLoadAverageSaturates := by
  intro m v w
  refine ⟨fun h => ?_, fun h => ?_, fun h => ?_, ?_, fun h => ?_⟩
  · rw [mapLoadAverage_source_of_ge m h, mapPercent_source_hundred]
    exact ⟨rfl, rfl⟩
  · rw [mapLoadAverage_source_of_ge m (Nat.le_of_succ_le h), decide_eq_true (Nat.lt_of_succ_le h)]
  · rw [mapLoadAverage_source_of_ge m h.ge, decide_eq_false (by omega)]
  · rw [mapLoadAverage_source, ← rescale_source_hundred m]
    exact rescale_mono _ m (Nat.min_le_right _ _)
  · rw [mapLoadAverage_source, mapLoadAverage_source]
    exact rescale_mono _ m (min_le_min_right 100 h)

/-! ### The lines in RUN (R106, R219) -/

/-- In RUN the lines present the registers, each level through its drive. -/
theorem lines_of_run {s : State} (h : s.phase = .run) :
    lines s =
      { cpu := driveOf s.cfg s.chanRaw.cpu, mem := driveOf s.cfg s.chanRaw.mem, la1 := driveOf s.cfg s.chanRaw.la1
        la5 := driveOf s.cfg s.chanRaw.la5, la15 := driveOf s.cfg s.chanRaw.la15
        ovfLa1 := s.ovf.la1, ovfLa5 := s.ovf.la5, ovfLa15 := s.ovf.la15, active := s.active
        more := s.chanRaw.more.map (driveOf s.cfg), ovfMore := s.ovf.more } := by
  unfold lines
  rw [h]

/-- Settles O12: in RUN the lines are the registers' own, and a drive keeps its level's low DRIVE_W bits. -/
theorem linesPresentRegisters : Obligations.LinesPresentRegisters := by
  intro s h
  rw [lines_of_run h]
  exact ⟨rfl, rfl, rfl, rfl, rfl, rfl, rfl, rfl, rfl, rfl, rfl⟩

end Sys2Proof.Machine
end

section
/-! The identity store (41_identity_store.md): how a token is rendered, what a power loss inside SETID leaves, and that
a token reads back through every run that writes no storage. -/

namespace Sys2Proof.Machine

variable {s : State}

/-! ### Rendering (R121) -/

/-- What stands before the first 0x00 is what a cut there leaves. -/
theorem take_idxOf_nul {p : List Byte} (q : List Byte) (hp : 0#8 ∉ p) :
    (p ++ 0#8 :: q).take ((p ++ 0#8 :: q).idxOf 0#8) = p := by
  rw [List.idxOf_append_of_notMem hp, List.idxOf_cons_self, Nat.add_zero, List.take_left]

/-- CSTRING renders a token that holds no 0x00 whole. -/
theorem render_cstring_of_notMem {tok : List Byte} (h : 0#8 ∉ tok) : render .cstring tok = tok :=
  take_idxOf_nul [] h

/-- CSTRING renders a token up to its first 0x00. -/
theorem render_cstring_of_first {p : List Byte} (q : List Byte) (hp : 0#8 ∉ p) :
    render .cstring (p ++ 0#8 :: q) = p := by
  unfold render
  simpa using take_idxOf_nul (q ++ [0#8]) hp

/-- CSTRING emits no NUL. -/
theorem nul_notMem_render_cstring (tok : List Byte) : 0#8 ∉ render .cstring tok := by
  by_cases h : 0#8 ∈ tok
  · obtain ⟨p, q, rfl, hp⟩ := List.eq_append_cons_of_mem h
    rwa [render_cstring_of_first q hp]
  · rwa [render_cstring_of_notMem h]

/-- Settles O14, by whether and where the token holds a 0x00. -/
theorem renderByMode : Obligations.RenderByMode := by
  intro tok
  refine ⟨rfl, render_cstring_of_notMem, ?_, nul_notMem_render_cstring tok⟩
  rintro p q rfl hp
  exact render_cstring_of_first q hp

/-- A token is rendered as it is exactly under RAW8 or where it holds no 0x00 (R124). -/
theorem render_eq_self_iff (r : Config.IdRender) (tok : List Byte) : render r tok = tok ↔ r = .raw8 ∨ 0#8 ∉ tok := by
  cases r with
  | raw8 => exact ⟨fun _ => .inl rfl, fun _ => rfl⟩
  | cstring =>
    refine ⟨fun h => .inr ?_, ?_⟩
    · rw [← h]
      exact nul_notMem_render_cstring tok
    · rintro (h | h)
      · cases h
      · exact render_cstring_of_notMem h

/-! ### Reading the token (R120) -/

/-- readIdentity answers the token whose byte k stands at address k. -/
theorem readIdentity_of_read {tok : Token}
    (h : ∀ (k : Nat) (v : Byte), tok.bytes[k]? = some v → Memory.read s.cfg s.nvm k = v) :
    readIdentity s = .next tok.bytes := by
  have hbytes : (List.range' 0 8).map (Memory.read s.cfg s.nvm) = tok.bytes :=
    List.ext_getElem (by simp [token_bytes_length]) fun k _ hk => by
      simpa using h k _ (List.getElem?_eq_getElem hk)
  rw [readIdentity_eq, hbytes]

/-- Reading the token depends on the parameters and the storage list alone. -/
theorem readIdentity_congr {t : State} (hc : t.cfg = s.cfg) (hn : t.nvm = s.nvm) : readIdentity t = readIdentity s := by
  rw [readIdentity_eq, readIdentity_eq, hc, hn]

/-- SETID completes, and its token reads back (R124, R144). -/
theorem exec_setid_readIdentity (tok : Token) (s : State) :
    ∃ t, exec (.setid tok) s = .next t ∧ readIdentity t = .next tok.bytes := by
  obtain ⟨m, hm, -, -, hsame⟩ := execSetid_eq tok s
  exact ⟨_, hm, readIdentity_of_read hsame⟩

/-! ### A power loss inside SETID (R125) -/

/-- In RUN the head of the schedule is the next move. -/
theorem nextMove_of_run_cons {m : Turn} {more : List Turn} (hrun : s.phase = .run) (hturns : s.turns = m :: more) :
    nextMove s = (m, { s with turns := more }) := by
  have hdue : entryDue s = false := by simp [entryDue, hrun]
  rw [nextMove_of_not_due s hdue, nextTurn, hturns]

/-- A torn write of a SETID in progress resets the block; the bytes before `k` are new, the byte at `k` has some
value, and those after it are old. -/
theorem tornWrite_setid {k : Fin 8} {tok : Token} {rest : List Byte} (hrun : s.phase = .run)
    (hdecode : decode s.cfg.literals s.rxq = .ok (.setid tok, rest)) :
    ∃ t, tornWrite k s = .next t ∧
      (∀ (a : Nat) (b : Byte), a < k.val → tok.bytes[a]? = some b → memRead t a = .next b) ∧
      (∃ b, memRead t k.val = .next b) ∧
      (∀ a, k.val < a → memRead t a = memRead s a) ∧
      t.phase = .boot ∧ t.tx = s.tx := by
  obtain ⟨f, hf, htok⟩ := decode_eq_ok.1 hdecode
  have hsize : k.val < nvmSize s.cfg := k.isLt.trans_le (eight_le_nvmSize s.cfg)
  obtain ⟨t, ht, ⟨-, hnone⟩ | ⟨f', rest', tok', m, -, hf', htok', rfl, -, hold, hnew⟩⟩ := tornWrite_cases k s
  · exact absurd htok (hnone f rest tok hrun hf)
  · cases hf.symm.trans hf'
    cases htok.symm.trans htok'
    refine ⟨_, ht, fun a b ha hb => ?_, ⟨_, memRead_of_lt hsize⟩, fun a ha => memRead_congr_read rfl (hold a ha),
      rfl, rfl⟩
    rw [← hnew a b ha hb]
    exact memRead_of_lt (ha.trans hsize)

/-- Settles O17: the scheduled power loss tears the SETID at the head of the queue. -/
theorem tornTokenWrite : Obligations.TornTokenWrite := by
  intro s k tok rest more hrun hturns hdecode
  have hstep : step s = tornWrite k { s with turns := more } := by
    rw [step, advance, nextMove_of_run_cons hrun hturns]
    rfl
  rw [hstep]
  exact tornWrite_setid (s := { s with turns := more }) hrun hdecode

/-! ### Every step completes (R210) -/

theorem cycle_completes (s : State) : ∃ t, cycle s = .next t := by
  cases hq : takeFrame s.cfg.literals s.rxq with
  | none => exact ⟨_, by rw [cycle, frameRead_of_none hq]; rfl⟩
  | some p =>
    obtain ⟨f, rest⟩ := p
    obtain ⟨u, hu, -⟩ := exec_cases (decodeFrame f) { s with frame := f, rxq := rest, dispatched := true }
    exact ⟨watchdog u, by rw [cycle, frameRead_of_some hq, dispatch, if_pos rfl, hu]; rfl⟩

theorem happen_completes (e : Event) (s : State) : ∃ t, happen e s = .next t := by
  cases e with
  | tornWrite k =>
    obtain ⟨t, ht, -⟩ := tornWrite_cases k s
    exact ⟨t, ht⟩
  | rxPush | tick | rxFlush | reset => exact ⟨_, rfl⟩

theorem takeTurn_completes (m : Turn) (s : State) : ∃ t, takeTurn m s = .next t := by
  cases m with
  | event e => exact happen_completes e s
  | enter => exact ⟨_, rfl⟩
  | cycle =>
    cases hp : s.phase with
    | run => simpa [takeTurn, hp] using cycle_completes s
    | boot => exact ⟨s, by simp [takeTurn, hp]⟩

theorem step_completes (s : State) : ∃ t, step s = .next t := takeTurn_completes _ _

end Sys2Proof.Machine

namespace Sys2Proof.Safety

open Sys2Proof.Machine

variable {s t : State}

/-! ### Runs that avoid a kind of step -/

theorem run_succ (n : Nat) (h : step s = .next t) : core.run (n + 1) s = core.run n t := by
  have h' : core.step s = .next t := h
  simp only [Host.Core.run, h']

theorem not_of_avoids {P : State → Prop} {n : Nat} (h : Avoids P (n + 1) s) : ¬ P s :=
  h 0 s n.succ_pos rfl

/-- What a run avoids, the run from its second state on avoids. -/
theorem avoids_of_step {P : State → Prop} {n : Nat} (h : Avoids P (n + 1) s) (hstep : step s = .next t) :
    Avoids P n t :=
  fun k u hk hu => h (k + 1) u (Nat.succ_lt_succ hk) ((run_succ k hstep).trans hu)

/-- A run that writes no storage completes, and leaves the parameters and storage. -/
theorem run_keeps_storage (n : Nat) (h : Avoids writesStorage n s) :
    ∃ u, core.run n s = .next u ∧ u.cfg = s.cfg ∧ u.nvm = s.nvm := by
  induction n generalizing s with
  | zero => exact ⟨s, rfl, rfl, rfl⟩
  | succ n ih =>
    obtain ⟨t, ht⟩ := step_completes s
    obtain ⟨u, hu, hcfg, hnvm⟩ := ih (avoids_of_step h ht)
    have hkeep : t.nvm = s.nvm := (storageChangesOnlyBySetid s t ht).2 (not_of_avoids h)
    exact ⟨u, (run_succ n ht).trans hu, hcfg.trans (parametersConstant s t ht), hnvm.trans hkeep⟩

/-- Settles O15: SETID leaves its token in storage, and a run that writes none leaves it there. -/
theorem tokenReadsBack : Obligations.TokenReadsBack := by
  intro s tok
  refine ⟨?_, fun r => render_eq_self_iff r tok.bytes⟩
  obtain ⟨t, hexec, hread⟩ := exec_setid_readIdentity tok s
  refine ⟨t, hexec, hread, fun n havoid => ?_⟩
  obtain ⟨u, hrun, hcfg, hnvm⟩ := run_keeps_storage n havoid
  exact ⟨u, hrun, (readIdentity_congr hcfg hnvm).trans hread⟩

end Sys2Proof.Safety
end

section
/-! The dispatcher (42_dispatcher.md R140 to R152): what each command leaves in the state, which outputs it reports,
and what it does not write. -/

namespace Sys2Proof.Machine

variable {s t : State} {i : Instr}

/-! ### GETNAME, the telemetry commands and NOP (R142, R145 to R150)

These commands run straight through: the state each rule writes out is the one `exec` answers. -/

/-- Settles O19 by running the command. -/
theorem getnameResult : Obligations.GetnameResult := fun _ => rfl

/-- Settles O22 by running the command. -/
theorem cpuResult : Obligations.CpuResult := fun _ _ => rfl

/-- Settles O23 by running the command. -/
theorem memResult : Obligations.MemResult := fun _ _ => rfl

/-- Settles O24 by running the command. -/
theorem la1Result : Obligations.La1Result := fun _ _ => rfl

/-- Settles O25 by running the command. -/
theorem la5Result : Obligations.La5Result := fun _ _ => rfl

/-- Settles O26 by running the command. -/
theorem la15Result : Obligations.La15Result := fun _ _ => rfl

/-- Settles O27 by running the command, which does not look at its opcode byte. -/
theorem nopResult : Obligations.NopResult := fun _ _ => rfl

/-! ### The identity commands (R120, R122, R143, R144) -/

/-- readIdentity answers the eight bytes that stand at addresses 0..7, in address order (R120). -/
theorem readIdentity_spec (s : State) : ∃ tok, readIdentity s = .next tok ∧ tok.length = 8 ∧
    ∀ (k : Nat) (b : Byte), tok[k]? = some b → memRead s k = .next b := by
  refine ⟨_, readIdentity_eq s, by simp, fun k b hk => ?_⟩
  obtain ⟨hlt, rfl⟩ := List.getElem?_eq_some_iff.1 hk
  have hk8 : k < 8 := by simpa using hlt
  simpa using memRead_of_lt (hk8.trans_le (eight_le_nvmSize s.cfg))

/-- Settles O20: GETID emits the token that readIdentity answers. -/
theorem getidResult : Obligations.GetidResult := by
  intro s
  obtain ⟨tok, hread, hlength, hbytes⟩ := readIdentity_spec s
  refine ⟨tok, hlength, hbytes, ?_⟩
  change execGetid s = _
  rw [execGetid, hread]
  rfl

/-- Settles O21, by what SETID writes at each address. -/
theorem setidResult : Obligations.SetidResult := by
  intro s tok
  obtain ⟨m, hm, -, hother, hsame⟩ := execSetid_eq tok s
  refine ⟨_, hm, fun k b hk => ?_, fun a ha => memRead_congr_read rfl (hother a ha), rfl⟩
  have hk8 : k < 8 := (List.getElem?_eq_some_iff.1 hk).1
  rw [← hsame k b hk]
  exact memRead_of_lt (hk8.trans_le (eight_le_nvmSize s.cfg))

/-! ### The dispatcher's outputs (R141) -/

theorem handledOf_iff {op : Byte} : handledOf op = true ↔ op.toNat ∈ [0, 1, 2, 10, 11, 12, 13, 14] := by
  simp [handledOf]; omega

theorem liveOf_iff {op : Byte} : liveOf op = true ↔ op.toNat ∈ [10, 11, 12, 13, 14] := by
  simp [liveOf]; omega

/-- An unassigned opcode is neither handled nor live (R141, R150). -/
theorem outputs_of_unassigned {op : Byte} (h : unassigned op = true) : handledOf op = false ∧ liveOf op = false := by
  rw [unassigned_iff] at h
  simp [handledOf, liveOf]
  omega

/-- A command that some frame holds reports handled and live of its opcode (R140, R141). -/
theorem exec_outputs (L : Config.Literals) (hwf : i.wf = true) (h : exec i s = .next t) :
    t.handled = handledOf (encodeFrame L i).op ∧ t.live = liveOf (encodeFrame L i).op := by
  obtain ⟨u, hu, hc⟩ := exec_cases i s
  cases hu.symm.trans h
  cases i with
  | setid tok => obtain ⟨m, rfl, -⟩ := hc; exact ⟨rfl, rfl⟩
  | nop op =>
    obtain ⟨hhandled, hlive⟩ := outputs_of_unassigned hwf
    subst hc
    exact ⟨hhandled.symm, hlive.symm⟩
  | getname | getid | cpu | mem | la1 | la5 | la15 => subst hc; exact ⟨rfl, rfl⟩

/-- Settles O28: a frame's command has the frame's opcode, and reports that opcode's outputs. -/
theorem dispatchOutputs : Obligations.DispatchOutputs := by
  intro f s
  obtain ⟨t, ht, -⟩ := exec_cases (decodeFrame f) s
  obtain ⟨hhandled, hlive⟩ := exec_outputs s.cfg.literals (decodeFrame_wf f) ht
  rw [encodeFrame_decodeFrame_op] at hhandled hlive
  exact ⟨t, ht, by rw [hhandled, handledOf_iff], by rw [hlive, liveOf_iff]⟩

/-! ### What a command does not write (R152)

The laws `exec_keeps_level` and `exec_keeps_bit` speak of the opcode. A NOP with an assigned opcode, which no frame
decodes to, shares that opcode with another command; so the laws here speak of the command itself. -/

/-- The command that sets a channel (R145 to R149). -/
def channelCommand : Channel → Byte → Instr
  | .cpu => .cpu
  | .mem => .mem
  | .la1 => .la1
  | .la5 => .la5
  | .la15 => .la15

/-- A command that some frame holds is the command of the channel whose opcode it carries (R24, R75). -/
theorem eq_channelCommand_of_op {L : Config.Literals} {c : Channel} (hwf : i.wf = true)
    (hop : (encodeFrame L i).op = channelOpcode c) : ∃ v, i = channelCommand c v := by
  rw [← decodeFrame_encodeFrame L hwf]
  generalize encodeFrame L i = f at hop ⊢
  obtain ⟨op, payload, more⟩ := f
  cases hop
  cases c <;> exact ⟨_, rfl⟩

/-- A command that no frame holds runs as NOP (log 17). -/
theorem exec_of_not_wf (hwf : ¬ i.wf = true) (s : State) : exec i s = .next (report false false s) := by
  cases i with
  | nop => rfl
  | getname | getid | setid | cpu | mem | la1 | la5 | la15 => exact absurd rfl hwf

/-- A command leaves the level of every channel but its own. -/
theorem exec_level_of_ne {c : Channel} (h : exec i s = .next t) (hne : ∀ v, i ≠ channelCommand c v) :
    Channels.level t.chanRaw c = Channels.level s.chanRaw c := by
  by_cases hwf : i.wf = true
  · exact exec_keeps_level s.cfg.literals h fun hop => (eq_channelCommand_of_op hwf hop).elim hne
  · cases (exec_of_not_wf hwf s).symm.trans h
    rfl

/-- A command leaves the overflow bit of every load average channel but its own. -/
theorem exec_bit_of_ne {c : LoadChannel} (h : exec i s = .next t)
    (hne : ∀ v, i ≠ channelCommand (LoadChannel.channel c) v) : Overflows.bit t.ovf c = Overflows.bit s.ovf c := by
  by_cases hwf : i.wf = true
  · exact exec_keeps_bit s.cfg.literals h fun hop => (eq_channelCommand_of_op hwf hop).elim hne
  · cases (exec_of_not_wf hwf s).symm.trans h
    rfl

/-- A command other than GETNAME and GETID emits nothing (R62). -/
theorem exec_tx_of_ne (h : exec i s = .next t) (hname : i ≠ .getname) (hid : i ≠ .getid) : t.tx = s.tx := by
  obtain ⟨u, hu, hc⟩ := exec_cases i s
  cases hu.symm.trans h
  cases i with
  | getname => exact absurd rfl hname
  | getid => exact absurd rfl hid
  | setid tok => obtain ⟨m, rfl, -⟩ := hc; rfl
  | cpu | mem | la1 | la5 | la15 | nop => subst hc; rfl

/-- A command other than SETID leaves storage. -/
theorem exec_nvm_of_ne (h : exec i s = .next t) (hne : ∀ tok, i ≠ .setid tok) : t.nvm = s.nvm :=
  (exec_storage h).resolve_right fun ⟨⟨tok, htok⟩, _⟩ => hne tok htok

/-- A command answers its state with no more than TX, NVM, CHAN_RAW, OVF, HANDLED and LIVE written. -/
theorem exec_eq_update (h : exec i s = .next t) :
    t = { s with
      tx := t.tx, nvm := t.nvm, chanRaw := t.chanRaw, ovf := t.ovf
      handled := t.handled, live := t.live } := by
  have hleaves := exec_leaves h
  cases s
  cases t
  simpa using hleaves

/-- Settles O29: one law per part of the state. -/
theorem commandFrame : Obligations.CommandFrame := by
  intro i s
  obtain ⟨t, ht, -⟩ := exec_cases i s
  obtain ⟨hcfg, -⟩ := exec_leaves ht
  refine ⟨t, ht, exec_eq_update ht, exec_tx_of_ne ht, fun hne => ?_,
    exec_level_of_ne (c := .cpu) ht, exec_level_of_ne (c := .mem) ht,
    fun hne => ⟨exec_level_of_ne (c := .la1) ht hne, exec_bit_of_ne (c := .la1) ht hne⟩,
    fun hne => ⟨exec_level_of_ne (c := .la5) ht hne, exec_bit_of_ne (c := .la5) ht hne⟩,
    fun hne => ⟨exec_level_of_ne (c := .la15) ht hne, exec_bit_of_ne (c := .la15) ht hne⟩,
    exec_keeps_more ht⟩
  have hnvm := exec_nvm_of_ne ht hne
  exact ⟨hnvm, memRead_congr hcfg hnvm⟩

end Sys2Proof.Machine
end

section
/-! The link watchdog (43_watchdog.md R170 to R177): the elapsed time modulo 2^TIME_W, what a cycle does to ACTIVE and
LAST_LIVE, and runs of ticks and cycles that dispatch no live frame. -/

namespace Sys2Proof.Machine

variable {s t : State}

/-! ### The elapsed time (R171, R172) -/

theorem elapsed_cast (w now last : Nat) :
    (elapsed w now last : Int) = ((now : Int) - (last : Int)) % (2 ^ w : Int) := by
  have hpos : ((2 ^ w : Nat) : Int) ≠ 0 := by exact_mod_cast (Nat.two_pow_pos w).ne'
  rw [elapsed, Int.toNat_of_nonneg (Int.emod_nonneg _ hpos)]
  push_cast
  rfl

/-- `d` units after LAST_LIVE the elapsed time is `d` modulo 2^TIME_W (R172). -/
theorem elapsed_of_later (w last d : Nat) : elapsed w ((last + d) % 2 ^ w) last = d % 2 ^ w := by
  have hmod : (((last + d : Nat) : Int) % (2 ^ w : Int) - last) % (2 ^ w : Int) =
      ((last + d : Nat) - last) % (2 ^ w : Int) := (Int.mod_modEq _ _).sub_right _
  zify
  rw [elapsed_cast]
  push_cast at hmod ⊢
  rw [hmod, add_sub_cancel_left]

/-- Settles O31: the two branches of the difference are the time passed since LAST_LIVE, without a wrap of TIME and
with one. -/
theorem elapsedIsWrapSafe : Obligations.ElapsedIsWrapSafe := by
  intro w now last hnow hlast
  have hinterval : ∀ d, d < 2 ^ w → now = (last + d) % 2 ^ w → elapsed w now last = d := by
    rintro d hd rfl
    rw [elapsed_of_later, Nat.mod_eq_of_lt hd]
  have hbranch : elapsed w now last = if last ≤ now then now - last else now + (2 ^ w - last) := by
    split_ifs with hle
    · refine hinterval _ (by omega) ?_
      rw [Nat.add_sub_cancel' hle, Nat.mod_eq_of_lt hnow]
    · refine hinterval _ (by omega) ?_
      have hwrap : last + (now + (2 ^ w - last)) = now + 2 ^ w := by omega
      rw [hwrap, Nat.add_mod_right, Nat.mod_eq_of_lt hnow]
  refine ⟨hbranch, ?_, hinterval⟩
  rw [hbranch]
  split_ifs <;> omega

/-! ### The watchdog step (R171) -/

/-- Settles O30, by the three branches of the watchdog step. -/
theorem watchdogStep : Obligations.WatchdogStep := by
  intro s
  rw [← elapsed_cast, Nat.cast_le, Nat.cast_lt]
  refine ⟨fun hlive => ?_, fun hlive hle => ?_, fun hlive hlt => ?_⟩
  · rw [watchdog, if_pos hlive]
  · rw [watchdog, if_neg (by simp [hlive]), if_pos hle]
  · rw [watchdog, if_neg (by simp [hlive]), if_neg hlt.not_ge]

/-! ### What a tick leaves (R217) -/

@[simp] theorem tick_turns (s : State) : (tick s).turns = s.turns := by unfold tick; split <;> rfl

theorem tick_active_of_run (h : s.phase = .run) : (tick s).active = s.active := by rw [tick_of_run h]

/-! ### What a cycle does to ACTIVE and LAST_LIVE (R173, R174) -/

/-- The frame at the head of the queue is live telemetry, so that the next cycle is live (R141, R191). -/
def headIsLive (L : Config.Literals) (q : List Byte) : Bool := (takeFrame L q).any fun p => liveOf p.1.op

theorem headIsLive_iff {L : Config.Literals} {q : List Byte} :
    headIsLive L q = true ↔ ∃ f rest, takeFrame L q = some (f, rest) ∧ 10 ≤ f.op.toNat ∧ f.op.toNat ≤ 14 := by
  simp [headIsLive, Option.any_eq_true, liveOf]

/-- A cycle ends with the watchdog step, on a state that keeps all the watchdog reads but LIVE (R193). -/
theorem cycle_ends_with_watchdog (h : cycle s = .next t) : ∃ u, t = watchdog u ∧
    u.cfg = s.cfg ∧ u.rxq = (frameRead s).rxq ∧ u.active = s.active ∧ u.lastLive = s.lastLive ∧ u.time = s.time ∧
    u.turns = s.turns ∧ u.live = headIsLive s.cfg.literals s.rxq := by
  obtain ⟨hq, rfl⟩ | ⟨f, rest, u, hq, hu, rfl⟩ := cycle_cases h
  · exact ⟨_, rfl, rfl, by rw [frameRead_of_none hq], rfl, rfl, rfl, rfl, by rw [headIsLive, hq]; rfl⟩
  · obtain ⟨hcfg, -, hrxq, -, hactive, hlast, htime, -, -, hturns, -⟩ := exec_leaves hu
    obtain ⟨-, hlive⟩ := exec_outputs s.cfg.literals (decodeFrame_wf f) hu
    rw [encodeFrame_decodeFrame_op] at hlive
    exact ⟨u, rfl, hcfg, by rw [hrxq, frameRead_of_some hq], hactive, hlast, htime, hturns,
      by rw [hlive, headIsLive, hq]; rfl⟩

theorem cycle_rxq (h : cycle s = .next t) : t.rxq = (frameRead s).rxq := by
  obtain ⟨u, rfl, -, hrxq, -⟩ := cycle_ends_with_watchdog h
  exact (watchdog_rxq u).trans hrxq

theorem cycle_keeps_turns (h : cycle s = .next t) : t.turns = s.turns := by
  obtain ⟨u, rfl, -, -, -, -, -, hturns, -⟩ := cycle_ends_with_watchdog h
  exact (watchdog_turns u).trans hturns

theorem cycle_lastLive (h : cycle s = .next t) :
    t.lastLive = if headIsLive s.cfg.literals s.rxq then s.time else s.lastLive := by
  obtain ⟨u, rfl, -, -, -, hlast, htime, -, hlive⟩ := cycle_ends_with_watchdog h
  rw [watchdog_lastLive, hlast, htime, hlive]

theorem cycle_active (h : cycle s = .next t) :
    t.active = if headIsLive s.cfg.literals s.rxq then true
      else if s.cfg.thresh ≤ elapsed s.cfg.timeW s.time s.lastLive then false else s.active := by
  obtain ⟨u, rfl, hcfg, -, hactive, hlast, htime, -, hlive⟩ := cycle_ends_with_watchdog h
  rw [watchdog_active, hcfg, hactive, hlast, htime, hlive]

end Sys2Proof.Machine

namespace Sys2Proof.Safety

open Sys2Proof.Machine

variable {s t : State}

/-! ### Steps (R173, R174) -/

/-- In RUN a step that is no reset and takes no cycle leaves ACTIVE and LAST_LIVE. -/
theorem step_keeps_link (hrun : s.phase = .run) (h : step s = .next t) (hr : ¬ resets s) (hc : ¬ runsCycle s) :
    t.active = s.active ∧ t.lastLive = s.lastLive := by
  rw [← nextMove_active s, ← nextMove_lastLive s]
  obtain ⟨-, hdue, rfl⟩ | ⟨-, -, rfl⟩ | ⟨b, -, rfl⟩ | ⟨-, -, rfl⟩ | ⟨-, rfl⟩ | ⟨hm, rfl⟩ | ⟨k, hm, -⟩ |
    ⟨-, hboot, -⟩ | ⟨hm, -, -⟩ := step_cases h
  · exact (not_boot_of_run hrun (phase_boot_of_entryDue hdue)).elim
  · exact ⟨rfl, rfl⟩
  · obtain ⟨q, d, hpush⟩ := rxPush_state b (nextMove s).2
    rw [hpush]
    exact ⟨rfl, rfl⟩
  · rw [tick_of_run ((nextMove_phase s).trans hrun)]
    exact ⟨rfl, rfl⟩
  · exact ⟨rfl, rfl⟩
  · exact absurd (.inl hm) hr
  · exact absurd (.inr ⟨k, hm⟩) hr
  · exact (not_boot_of_run hrun hboot).elim
  · exact absurd ⟨hrun, hm⟩ hc

/-- Settles O32: outside a cycle ACTIVE and LAST_LIVE are kept, and a cycle that is not live can only clear ACTIVE. -/
theorem activeRisesOnlyOnLiveCycle : Obligations.ActiveRisesOnlyOnLiveCycle := by
  intro s t hrun h hr hchange
  have hc : runsCycle s := by
    by_contra hc
    obtain ⟨hactive, hlast⟩ := step_keeps_link hrun h hr hc
    simp [hactive, hlast] at hchange
  refine ⟨hc, headIsLive_iff.1 ?_⟩
  by_contra hlive
  rw [step_of_runsCycle hc] at h
  have hactive := cycle_active h
  have hlast := cycle_lastLive h
  simp only [nextMove_cfg, nextMove_rxq, nextMove_active, nextMove_lastLive, nextMove_time, if_neg hlive] at hactive hlast
  obtain ⟨hlow, hhigh⟩ | hne := hchange
  · rw [hactive, hlow] at hhigh
    simp at hhigh
  · exact hne hlast

/-- Settles O33: the frame at the head of the queue makes the cycle live. -/
theorem liveCycleRefreshesAtOnce : Obligations.LiveCycleRefreshesAtOnce := by
  intro s f rest hc hf hlow hhigh
  have hlive := headIsLive_iff.2 ⟨f, rest, hf, hlow, hhigh⟩
  obtain ⟨t, h⟩ := cycle_completes (nextMove s).2
  have hactive := cycle_active h
  have hlast := cycle_lastLive h
  have htime := cycle_keeps_time h
  simp only [nextMove_cfg, nextMove_rxq, nextMove_time, if_pos hlive] at hactive hlast htime
  exact ⟨t, (step_of_runsCycle hc).trans h, hactive, hlast, htime⟩

/-! ### Queues without a live frame (R175, R192) -/

theorem headIsLive_of_noLiveFrame {L : Config.Literals} {q : List Byte} (h : NoLiveFrame L q) :
    headIsLive L q = false := by
  cases hq : takeFrame L q with
  | none => rw [headIsLive, hq]; rfl
  | some p =>
    obtain ⟨f, rest⟩ := p
    obtain ⟨hlen, -, -⟩ := takeFrame_spec hq
    have hop : liveOf f.op = false := h 0 f.op (by simpa using hlen) (head_of_takeFrame hq)
    rw [headIsLive, hq]
    exact hop

theorem noLiveFrame_drop {L : Config.Literals} {q : List Byte} (h : NoLiveFrame L q) :
    NoLiveFrame L (q.drop (frameLen L)) := by
  intro k b hk hb
  rw [List.getElem?_drop] at hb
  have hpos := nine_le_frameLen L
  rw [List.length_drop] at hk
  exact h (k + 1) b (by rw [Nat.mul_succ]; omega) (by rwa [Nat.mul_succ, Nat.add_comm])

/-- The frame-reader step leaves no live frame where there was none. -/
theorem noLiveFrame_frameRead (h : NoLiveFrame s.cfg.literals s.rxq) :
    NoLiveFrame s.cfg.literals (frameRead s).rxq := by
  cases hq : takeFrame s.cfg.literals s.rxq with
  | none => rwa [frameRead_of_none hq]
  | some p =>
    obtain ⟨f, rest⟩ := p
    obtain ⟨-, -, rfl⟩ := takeFrame_spec hq
    rw [frameRead_of_some hq]
    exact noLiveFrame_drop h

/-! ### Runs of ticks and cycles without a live frame (R175) -/

/-- The block runs, no live frame is queued, and `d` time units have passed since the last live cycle, or since
reset. -/
structure QuietFor (d : Nat) (s : State) : Prop where
  running : s.phase = .run
  noLive : NoLiveFrame s.cfg.literals s.rxq
  time : s.time = (s.lastLive + d) % 2 ^ s.cfg.timeW

theorem step_of_run_cons {m : Turn} {more : List Turn} (hrun : s.phase = .run) (hturns : s.turns = m :: more) :
    step s = takeTurn m { s with turns := more } := by
  rw [step, advance, nextMove_of_run_cons hrun hturns]

/-- A run of `m + n` steps is a run of `m` steps and then one of `n`. -/
theorem run_add {m : Nat} (n : Nat) (h : core.run m s = .next t) : core.run (m + n) s = core.run n t := by
  induction m generalizing s with
  | zero => cases h; rw [Nat.zero_add]
  | succ m ih =>
    obtain ⟨u, hu⟩ := step_completes s
    rw [run_succ m hu] at h
    rw [Nat.succ_add, run_succ (m + n) hu]
    exact ih h

variable {d : Nat}

/-- The time compared with THRESH is the true one as long as that is below 2^TIME_W (R172). -/
theorem QuietFor.elapsed_eq (h : QuietFor d s) : elapsed s.cfg.timeW s.time s.lastLive = d % 2 ^ s.cfg.timeW := by
  rw [h.time, elapsed_of_later]

theorem QuietFor.withTurns (h : QuietFor d s) (ts : List Turn) : QuietFor d { s with turns := ts } :=
  ⟨h.running, h.noLive, h.time⟩

/-- A tick lengthens the quiet time by one unit (R217). -/
theorem QuietFor.after_tick (h : QuietFor d s) : QuietFor (d + 1) (tick s) := by
  rw [tick_of_run h.running]
  exact ⟨h.running, h.noLive, by simp only [h.time, Nat.mod_add_mod, Nat.add_assoc]⟩

/-- A cycle in the quiet time is not live, and leaves the quiet time as it is. -/
theorem QuietFor.after_cycle (h : QuietFor d s) (ht : cycle s = .next t) : QuietFor d t ∧ t.lastLive = s.lastLive := by
  have hlast : t.lastLive = s.lastLive := by rw [cycle_lastLive ht, headIsLive_of_noLiveFrame h.noLive]; rfl
  refine ⟨⟨(cycle_keeps_phase ht).trans h.running, ?_, ?_⟩, hlast⟩
  · rw [cycle_keeps_cfg ht, cycle_rxq ht]
    exact noLiveFrame_frameRead h.noLive
  · rw [cycle_keeps_cfg ht, hlast, cycle_keeps_time ht]
    exact h.time

/-- A cycle in the quiet time keeps ACTIVE exactly while THRESH has not elapsed. -/
theorem QuietFor.cycle_active_iff (h : QuietFor d s) (ht : cycle s = .next t) :
    t.active = true ↔ s.active = true ∧ d % 2 ^ s.cfg.timeW < s.cfg.thresh := by
  rw [cycle_active ht, headIsLive_of_noLiveFrame h.noLive, h.elapsed_eq, ← Nat.not_le]
  by_cases hle : s.cfg.thresh ≤ d % 2 ^ s.cfg.timeW <;> simp [hle]

/-- Scheduled ticks lengthen the quiet time and leave ACTIVE. -/
theorem run_ticks {more : List Turn} (g : Nat) (h : QuietFor d s)
    (hturns : s.turns = List.replicate g (.event .tick) ++ more) :
    ∃ t, core.run g s = .next t ∧ QuietFor (d + g) t ∧ t.cfg = s.cfg ∧ t.active = s.active ∧ t.turns = more := by
  induction g generalizing s d with
  | zero => exact ⟨s, rfl, h, rfl, rfl, hturns⟩
  | succ g ih =>
    have hquiet := h.withTurns (List.replicate g (.event .tick) ++ more)
    have hstep := step_of_run_cons h.running hturns
    obtain ⟨t, hrun, ht, hcfg, hactive, hmore⟩ := ih hquiet.after_tick (tick_turns _)
    rw [tick_cfg] at hcfg
    rw [tick_active_of_run hquiet.running] at hactive
    exact ⟨t, (run_succ g hstep).trans hrun, by rwa [Nat.add_right_comm] at ht, hcfg, hactive, hmore⟩

/-- A scheduled cycle in the quiet time keeps LAST_LIVE, and ACTIVE exactly while THRESH has not elapsed. -/
theorem step_quiet_cycle {more : List Turn} (h : QuietFor d s) (hturns : s.turns = .cycle :: more) :
    ∃ t, step s = .next t ∧ QuietFor d t ∧ t.cfg = s.cfg ∧ t.turns = more ∧ t.lastLive = s.lastLive ∧
      (t.active = true ↔ s.active = true ∧ d % 2 ^ s.cfg.timeW < s.cfg.thresh) := by
  have hstep : step s = cycle { s with turns := more } := by
    rw [step_of_run_cons h.running hturns, takeTurn]
    simp only [h.running]
  obtain ⟨t, ht⟩ := cycle_completes { s with turns := more }
  have hquiet := h.withTurns more
  have hcfg := cycle_keeps_cfg ht
  obtain ⟨hquiet', hlast⟩ := hquiet.after_cycle ht
  exact ⟨t, hstep.trans ht, hquiet', hcfg, cycle_keeps_turns ht, hlast, hquiet.cycle_active_iff ht⟩

/-- A gap of `g` ticks and the cycle that ends it. -/
theorem run_gap {more : List Turn} (g : Nat) (h : QuietFor d s)
    (hturns : s.turns = List.replicate g (.event .tick) ++ .cycle :: more) :
    ∃ t, core.run (g + 1) s = .next t ∧ QuietFor (d + g) t ∧ t.cfg = s.cfg ∧ t.turns = more ∧
      (t.active = true ↔ s.active = true ∧ (d + g) % 2 ^ s.cfg.timeW < s.cfg.thresh) := by
  obtain ⟨u, hu, hquiet, hcfg, hactive, hcycle⟩ := run_ticks g h hturns
  obtain ⟨t, ht, hquiet', hcfg', hmore, -, hactive'⟩ := step_quiet_cycle hquiet hcycle
  rw [hactive, hcfg] at hactive'
  exact ⟨t, (run_add 1 hu).trans (run_succ 0 ht), hquiet', hcfg'.trans hcfg, hmore, hactive'⟩

theorem tickedCycles_cons_append (g : Nat) (gaps : List Nat) (more : List Turn) :
    tickedCycles (g :: gaps) ++ more =
      List.replicate g (.event .tick) ++ .cycle :: (tickedCycles gaps ++ more) := by
  simp [tickedCycles]

theorem tickedCycles_cons_length (g : Nat) (gaps : List Nat) :
    (tickedCycles (g :: gaps)).length = g + 1 + (tickedCycles gaps).length := by
  simp [tickedCycles, Nat.add_assoc, Nat.add_comm 1]

/-- A gap of at most 2^TIME_W - THRESH cannot carry a true time below THRESH past THRESH and back below it modulo
2^TIME_W. -/
theorem mod_lt_iff_of_gap {d g w thresh : Nat} (hd : d < thresh) (hg : g ≤ 2 ^ w - thresh) :
    (d + g) % 2 ^ w < thresh ↔ d + g < thresh := by
  obtain hlt | hge := Nat.lt_or_ge (d + g) (2 ^ w)
  · rw [Nat.mod_eq_of_lt hlt]
  · have := Nat.mod_le (d + g) (2 ^ w)
    omega

/-- The same of a true time that is all in one gap. -/
theorem mod_lt_iff_of_first_gap {d w thresh : Nat} (hd : d ≤ 2 ^ w - thresh) :
    d % 2 ^ w < thresh ↔ d < thresh := by
  obtain rfl | hpos := Nat.eq_zero_or_pos thresh
  · simp
  · simpa using mod_lt_iff_of_gap hpos hd

/-- Once ACTIVE tells whether the quiet time is below THRESH, it does so after every further cycle. -/
theorem run_tickedCycles {more : List Turn} (gaps : List Nat) (h : QuietFor d s)
    (hactive : s.active = true ↔ d < s.cfg.thresh) (hgaps : ∀ x ∈ gaps, x ≤ 2 ^ s.cfg.timeW - s.cfg.thresh)
    (hturns : s.turns = tickedCycles gaps ++ more) :
    ∃ t, core.run (tickedCycles gaps).length s = .next t ∧ t.turns = more ∧
      (t.active = true ↔ d + gaps.sum < s.cfg.thresh) := by
  induction gaps generalizing s d with
  | nil => exact ⟨s, rfl, hturns, hactive⟩
  | cons g gaps ih =>
    obtain ⟨hg, hgaps⟩ := List.forall_mem_cons.1 hgaps
    rw [tickedCycles_cons_append] at hturns
    obtain ⟨u, hu, hquiet, hcfg, hrest, hcycle⟩ := run_gap g h hturns
    have hactive' : u.active = true ↔ d + g < u.cfg.thresh := by
      rw [hcycle, hactive, hcfg]
      constructor
      · rintro ⟨hd, hlt⟩
        exact (mod_lt_iff_of_gap hd hg).1 hlt
      · intro hlt
        have hd : d < s.cfg.thresh := by omega
        exact ⟨hd, (mod_lt_iff_of_gap hd hg).2 hlt⟩
    obtain ⟨t, ht, hmore, hfinal⟩ := ih hquiet hactive' (by rwa [hcfg]) hrest
    rw [hcfg, Nat.add_assoc, ← List.sum_cons] at hfinal
    rw [tickedCycles_cons_length]
    exact ⟨t, (run_add _ hu).trans ht, hmore, hfinal⟩

/-- Settles O34: after the first gap ACTIVE tells whether the quiet time is below THRESH, and so it does after each
later one, by induction on the gaps. -/
theorem activeFallsExactlyAtThreshold : Obligations.ActiveFallsExactlyAtThreshold := by
  intro s d g gaps more hrun hactive hno _ htime hturns hfirst hgaps
  rw [tickedCycles_cons_append] at hturns
  obtain ⟨u, hu, hquiet, hcfg, hrest, hcycle⟩ := run_gap g ⟨hrun, hno, htime⟩ hturns
  have hactive' : u.active = true ↔ d + g < u.cfg.thresh := by
    rw [hcycle, hcfg, mod_lt_iff_of_first_gap hfirst, and_iff_right hactive]
  obtain ⟨t, ht, hmore, hfinal⟩ := run_tickedCycles gaps hquiet hactive' (by rwa [hcfg]) hrest
  rw [hcfg, Nat.add_assoc, ← List.sum_cons] at hfinal
  rw [tickedCycles_cons_length]
  exact ⟨t, (run_add _ hu).trans ht, hmore, hfinal⟩

/-! ### A boot as long as THRESH (R177) -/

/-- Where main-loop entry is due, it comes before a cycle at the head of the schedule (R243, log 10). -/
theorem step_enters_before_cycle {more : List Turn} (hdue : entryDue s = true) (hturns : s.turns = .cycle :: more) :
    step s = .next (enterMainLoop s) := by
  have hmove : nextMove s = (.enter, s) := by simp [nextMove, nextTurn, hdue, hturns, afterEntry]
  simp [step, advance, hmove, takeTurn, hdue]

/-- At main-loop entry the quiet time is that of the boot. -/
theorem quietFor_enterMainLoop (hboot : s.phase = .boot) (h : Inv s) (hno : NoLiveFrame s.cfg.literals s.rxq) :
    QuietFor s.bootElapsed (enterMainLoop s) := by
  obtain ⟨-, -, -, hlast⟩ := h.bootQuiet hboot
  refine ⟨rfl, hno, ?_⟩
  simpa [hlast] using h.bootTime hboot

/-- Settles O35: at the first cycle the quiet time is BOOT_TICKS, which is THRESH or more. -/
theorem longBootReportsInactive : Obligations.LongBootReportsInactive := by
  intro s more hboot h helapsed hthresh hwidth hturns hno
  have hstep := step_enters_before_cycle (entryDue_iff.2 ⟨hboot, helapsed.ge⟩) hturns
  have hquiet := quietFor_enterMainLoop hboot h hno
  rw [helapsed] at hquiet
  obtain ⟨t, ht, hquiet', -, -, hlast, hactive⟩ := step_quiet_cycle hquiet hturns
  obtain ⟨-, -, -, hzero⟩ := h.bootQuiet hboot
  rw [enterMainLoop_cfg, Nat.mod_eq_of_lt hwidth] at hactive
  refine ⟨t, (run_succ 1 hstep).trans (run_succ 0 ht), hquiet'.running, ?_, hlast.trans hzero⟩
  rw [← Bool.not_eq_true, hactive]
  exact fun hlow => hthresh.not_gt hlow.2

end Sys2Proof.Safety
end

section
/-! The frame accumulator, the cycle and the schedule (44_frame_reader.md R190 to R198): which move a step makes, the
frame-reader step as a cut of the queue, runs of cycles without pushes, and the frames dispatched as cuts of the bytes
accepted. -/

namespace Sys2Proof

/-! ### Frames laid end to end (R194) -/

variable {w : Nat} {fs : List Frame}

theorem flatMap_bytes_length (h : ∀ f ∈ fs, f.bytes.length = w) : (fs.flatMap Frame.bytes).length = w * fs.length := by
  induction fs with
  | nil => rfl
  | cons f fs ih =>
    obtain ⟨hf, hfs⟩ := List.forall_mem_cons.1 h
    rw [List.flatMap_cons, List.length_append, hf, ih hfs, List.length_cons, Nat.mul_succ, Nat.add_comm]

/-- `w * k` bytes on in frames of `w` bytes each, the `k`-th frame begins. -/
theorem drop_flatMap_bytes (h : ∀ f ∈ fs, f.bytes.length = w) (rest : List Byte) {k : Nat} (hk : k ≤ fs.length) :
    (fs.flatMap Frame.bytes ++ rest).drop (w * k) = (fs.drop k).flatMap Frame.bytes ++ rest := by
  have hlen : ((fs.take k).flatMap Frame.bytes).length = w * k := by
    rw [flatMap_bytes_length fun f hf => h f (List.mem_of_mem_take hf), List.length_take, Nat.min_eq_left hk]
  conv_lhs => rw [← List.take_append_drop k fs, List.flatMap_append, List.append_assoc]
  exact List.drop_left' hlen

/-- The `k`-th of the frames is the `w` bytes from `w * k` on. -/
theorem take_drop_flatMap_bytes (h : ∀ f ∈ fs, f.bytes.length = w) (rest : List Byte) {k : Nat} {f : Frame}
    (hf : fs[k]? = some f) : ((fs.flatMap Frame.bytes ++ rest).drop (w * k)).take w = f.bytes := by
  obtain ⟨hk, rfl⟩ := List.getElem?_eq_some_iff.1 hf
  rw [drop_flatMap_bytes h rest hk.le, List.drop_eq_getElem_cons hk, List.flatMap_cons, List.append_assoc]
  exact List.take_left' (h _ (List.getElem_mem hk))

end Sys2Proof

namespace Sys2Proof.Machine

variable {s t : State}

/-! ### Which move is next (R198, R213) -/

theorem afterEntry_iff {m : Turn} : afterEntry m = true ↔ m = .cycle ∨ m = .event .tick := by
  cases m with
  | event e => cases e <;> simp [afterEntry]
  | cycle | enter => simp [afterEntry]

theorem nextTurn_of_cons {m : Turn} {more : List Turn} (hturns : s.turns = m :: more) :
    nextTurn s = (m, { s with turns := more }) := by
  rw [nextTurn, hturns]

/-- The head of the schedule is the next move, unless main-loop entry is due and comes before it. -/
theorem nextMove_of_cons {m : Turn} {more : List Turn} (hturns : s.turns = m :: more)
    (h : entryDue s = false ∨ afterEntry m = false) : nextMove s = (m, { s with turns := more }) := by
  rw [nextMove, nextTurn_of_cons hturns, if_neg]
  simpa [-not_and, not_and_or] using h

/-- Where main-loop entry is due and comes before the head of the schedule, it is the next move, and the schedule is
kept. -/
theorem nextMove_of_due {m : Turn} {more : List Turn} (hturns : s.turns = m :: more) (hdue : entryDue s = true)
    (h : afterEntry m = true) : nextMove s = (.enter, s) := by
  rw [nextMove, nextTurn_of_cons hturns, if_pos (by simp [hdue, h])]

/-- No move of the block's own waits for main-loop entry: where that is due, the entry is the own move. -/
theorem not_afterEntry_ownTurn (hdue : entryDue s = true) : afterEntry (ownTurn s) = false := by
  simp [ownTurn, phase_boot_of_entryDue hdue, hdue, afterEntry]

/-- At the schedule's end the block moves by itself. -/
theorem nextMove_of_nil (hturns : s.turns = []) : (nextMove s).1 = ownTurn s := by
  have hnext : (nextTurn s).1 = ownTurn s := by rw [nextTurn, hturns]
  have hown := not_afterEntry_ownTurn (s := s)
  rw [nextMove, if_neg, hnext]
  simpa [hnext] using hown

/-- Settles O38: each clause is the equation of the schedule's head or of its end. -/
theorem scheduleDecidesMove : Obligations.ScheduleDecidesMove := by
  intro s
  refine ⟨fun m more hturns h => nextMove_of_cons hturns ?_, fun m more hturns hdue h => ?_, fun hturns hrun => ?_,
    fun hturns hboot hdue => ?_, fun hturns hboot hdue => ?_, ?_⟩
  · rwa [← Bool.not_eq_true (afterEntry m), afterEntry_iff, not_or]
  · exact nextMove_of_due hturns hdue (afterEntry_iff.2 h)
  · exact (nextMove_of_nil hturns).trans (by simp [ownTurn, hrun])
  · exact (nextMove_of_nil hturns).trans (by simp [ownTurn, hboot, hdue])
  · exact (nextMove_of_nil hturns).trans (by simp [ownTurn, hboot, hdue])
  · obtain ⟨ts, d, hs⟩ := nextMove_state s
    rw [hs]

/-! ### Pushes and transport resets (R190, R196) -/

/-- A scheduled event that need not wait for main-loop entry happens in either phase. -/
theorem step_of_event {e : Event} {more : List Turn} (hturns : s.turns = .event e :: more)
    (h : afterEntry (.event e) = false) : step s = happen e { s with turns := more } := by
  rw [step, advance, nextMove_of_cons hturns (.inr h)]
  rfl

theorem rxPush_rxq_of_room (b : Byte) (h : s.rxq.length < rxqCap s.cfg) : (rxPush b s).rxq = s.rxq ++ [b] := by
  rw [rxPush, if_pos h]

theorem rxPush_rxq_of_full_dropNew (b : Byte) (h : rxqCap s.cfg ≤ s.rxq.length) (hdrop : s.cfg.rxOverflow = .dropNew) :
    (rxPush b s).rxq = s.rxq := by
  rw [rxPush, if_neg h.not_gt, hdrop]

/-- At a full queue ANY_DROP loses one byte, queued or arriving. -/
theorem rxPush_rxq_of_full_anyDrop (b : Byte) (h : rxqCap s.cfg ≤ s.rxq.length) (hdrop : s.cfg.rxOverflow = .anyDrop) :
    ∃ j, j ≤ s.rxq.length ∧ (rxPush b s).rxq = (s.rxq ++ [b]).eraseIdx j := by
  refine ⟨Config.freeIndex s.draws % (s.rxq.length + 1), Nat.lt_succ_iff.1 (Nat.mod_lt _ (Nat.succ_pos _)), ?_⟩
  rw [rxPush, if_neg h.not_gt, hdrop]

/-- Settles O39, by the three branches of a push. -/
theorem pushAppendsOrDrops : Obligations.PushAppendsOrDrops := by
  intro s b more hturns
  refine ⟨rxPush b { s with turns := more }, step_of_event hturns rfl, ?_,
    rxPush_rxq_of_room (s := { s with turns := more }) b,
    rxPush_rxq_of_full_dropNew (s := { s with turns := more }) b,
    rxPush_rxq_of_full_anyDrop (s := { s with turns := more }) b⟩
  obtain ⟨q, d, hpush⟩ := rxPush_state b { s with turns := more }
  rw [hpush]

/-- Settles O43: the scheduled transport reset happens, and it is the update of RXQ alone. -/
theorem flushEmptiesQueueOnly : Obligations.FlushEmptiesQueueOnly := fun _ _ hturns => step_of_event hturns rfl

@[simp] theorem tick_rxq (s : State) : (tick s).rxq = s.rxq := by unfold tick; split <;> rfl

/-! ### The frame-reader step (R191) -/

theorem frameRead_of_short (h : s.rxq.length < frameLen s.cfg.literals) :
    frameRead s = { s with dispatched := false } :=
  frameRead_of_none (takeFrame_eq_none.2 h)

/-- With FRAME_LEN bytes queued, the frame-reader step latches the first of them and takes them off. -/
theorem frameRead_of_long (h : frameLen s.cfg.literals ≤ s.rxq.length) :
    ∃ f : Frame, f.bytes = s.rxq.take (frameLen s.cfg.literals) ∧
      frameRead s = { s with frame := f, rxq := s.rxq.drop (frameLen s.cfg.literals), dispatched := true } := by
  obtain ⟨f, hf, hbytes⟩ := exists_takeFrame h
  exact ⟨f, hbytes, frameRead_of_some hf⟩

/-- Settles O40, by whether a frame is queued. -/
theorem frameReadTakesNine : Obligations.FrameReadTakesNine := by
  refine ⟨rfl, ?_⟩
  rintro s _ rfl
  exact ⟨frameRead_of_long, frameRead_of_short⟩

theorem frameRead_dispatched : (frameRead s).dispatched = true ↔ frameLen s.cfg.literals ≤ s.rxq.length := by
  obtain h | h := Nat.lt_or_ge s.rxq.length (frameLen s.cfg.literals)
  · simp [frameRead_of_short h, h]
  · obtain ⟨f, -, hread⟩ := frameRead_of_long h
    simp [hread, h]

/-- The frame-reader step takes one frame off the queue, if there is one. -/
theorem frameRead_rxq : (frameRead s).rxq =
    s.rxq.drop (frameLen s.cfg.literals * min 1 (s.rxq.length / frameLen s.cfg.literals)) := by
  obtain h | h := Nat.lt_or_ge s.rxq.length (frameLen s.cfg.literals)
  · simp [frameRead_of_short h, Nat.div_eq_of_lt h]
  · obtain ⟨f, -, hread⟩ := frameRead_of_long h
    have hpos : 1 ≤ s.rxq.length / frameLen s.cfg.literals :=
      Nat.div_pos h (Nat.zero_lt_of_lt (nine_le_frameLen _))
    rw [hread, Nat.min_eq_left hpos, Nat.mul_one]

/-! ### The cycle (R193) -/

theorem cycle_of_some {f : Frame} {rest : List Byte} (h : takeFrame s.cfg.literals s.rxq = some (f, rest)) :
    cycle s = andThen (exec (decodeFrame f) { s with frame := f, rxq := rest, dispatched := true })
      fun t => .next (watchdog t) := by
  rw [cycle, frameRead_of_some h]
  rfl

theorem cycle_of_none (h : takeFrame s.cfg.literals s.rxq = none) :
    cycle s = .next (watchdog { s with dispatched := false, handled := false, live := false }) := by
  rw [cycle, frameRead_of_none h]
  rfl

/-- A cycle leaves FRAME and DISPATCHED as its frame-reader step set them. -/
theorem cycle_latches (h : cycle s = .next t) :
    t.frame = (frameRead s).frame ∧ t.dispatched = (frameRead s).dispatched := by
  obtain ⟨hq, rfl⟩ | ⟨f, rest, u, hq, hu, rfl⟩ := cycle_cases h
  · simp [frameRead_of_none hq]
  · obtain ⟨-, -, -, hframe, -, -, -, hdispatched, -⟩ := exec_leaves hu
    simp [frameRead_of_some hq, hframe, hdispatched]

end Sys2Proof.Machine

namespace Sys2Proof.Safety

open Sys2Proof.Machine

variable {s t : State}

/-- Settles O36: the cycle's command is the one the frame at the head of the queue decodes to. -/
theorem stepRunsDecodedCommand : Obligations.StepRunsDecodedCommand := by
  intro s f i rest hc hf hdecode
  obtain ⟨g, hg, rfl⟩ := decode_eq_ok.1 hdecode
  cases hf.symm.trans hg
  rw [step_of_runsCycle hc, cycle_of_some (by simpa using hf)]

/-- Settles O37: from a short queue no frame can be cut. -/
theorem cycleWithoutFrame : Obligations.CycleWithoutFrame := by
  intro s hc hshort
  rw [step_of_runsCycle hc, cycle_of_none (by simpa [takeFrame_eq_none] using hshort)]

/-! ### Runs of cycles without pushes (R192) -/

theorem step_of_scheduled_cycle {more : List Turn} (hrun : s.phase = .run) (hturns : s.turns = .cycle :: more) :
    step s = cycle { s with turns := more } := by
  rw [step_of_run_cons hrun hturns, takeTurn]
  simp only [hrun]

/-- `j` cycles have run on the queue `q`: `min j (|q| / FRAME_LEN)` frames are gone from its head. -/
structure DrainedBy (L : Config.Literals) (q : List Byte) (j : Nat) (s : State) : Prop where
  running : s.phase = .run
  literals : s.cfg.literals = L
  rxq : s.rxq = q.drop (frameLen L * min j (q.length / frameLen L))

variable {L : Config.Literals} {q : List Byte} {j : Nat}

theorem drainedBy_zero (hrun : s.phase = .run) : DrainedBy s.cfg.literals s.rxq 0 s :=
  ⟨hrun, rfl, by simp⟩

theorem DrainedBy.withTurns (h : DrainedBy L q j s) (ts : List Turn) : DrainedBy L q j { s with turns := ts } :=
  ⟨h.running, h.literals, h.rxq⟩

/-- The frames that `j` cycles have left in the queue. -/
theorem DrainedBy.frames_left (h : DrainedBy L q j s) :
    s.rxq.length / frameLen L = q.length / frameLen L - min j (q.length / frameLen L) := by
  rw [h.rxq, List.length_drop]
  exact Nat.sub_mul_div ..

/-- A frame is left for the next cycle exactly if the queue held more than `j`. -/
theorem DrainedBy.frame_left_iff (h : DrainedBy L q j s) :
    frameLen L ≤ s.rxq.length ↔ j + 1 ≤ q.length / frameLen L := by
  have hpos : 0 < frameLen L := Nat.zero_lt_of_lt (nine_le_frameLen L)
  have hleft := h.frames_left
  rw [← Nat.one_le_div_iff hpos, hleft]
  omega

/-- One more cycle takes one more frame off the queue, if there is one left. -/
theorem DrainedBy.after_cycle (h : DrainedBy L q j s) (ht : cycle s = .next t) : DrainedBy L q (j + 1) t := by
  refine ⟨(cycle_keeps_phase ht).trans h.running, by rw [cycle_keeps_cfg ht, h.literals], ?_⟩
  have hmin : min j (q.length / frameLen L) + min 1 (q.length / frameLen L - min j (q.length / frameLen L)) =
      min (j + 1) (q.length / frameLen L) := by omega
  rw [cycle_rxq ht, frameRead_rxq, h.literals, h.frames_left, h.rxq, List.drop_drop, ← Nat.mul_add, hmin]

/-- The next cycle dispatches a frame exactly if one is left. -/
theorem DrainedBy.dispatched_iff (h : DrainedBy L q j s) (ht : cycle s = .next t) :
    t.dispatched = true ↔ j + 1 ≤ q.length / frameLen L := by
  obtain ⟨-, hdispatched⟩ := cycle_latches ht
  rw [hdispatched, frameRead_dispatched, h.literals, h.frame_left_iff]

/-- The frame the next cycle dispatches is the queue's `j`-th. -/
theorem DrainedBy.frame_bytes (h : DrainedBy L q j s) (ht : cycle s = .next t) (hj : j + 1 ≤ q.length / frameLen L) :
    t.frame.bytes = (q.drop (frameLen L * j)).take (frameLen L) := by
  obtain ⟨hframe, -⟩ := cycle_latches ht
  have hlong := h.frame_left_iff.2 hj
  rw [← h.literals] at hlong
  obtain ⟨f, hbytes, hread⟩ := frameRead_of_long hlong
  rw [h.literals, h.rxq, Nat.min_eq_left (Nat.le_of_succ_le hj)] at hbytes
  rw [hframe, hread]
  exact hbytes

theorem run_cycles {more : List Turn} (j : Nat) (hrun : s.phase = .run)
    (hturns : s.turns = List.replicate j .cycle ++ more) :
    ∃ t, core.run j s = .next t ∧ t.turns = more ∧ DrainedBy s.cfg.literals s.rxq j t := by
  induction j generalizing more with
  | zero => exact ⟨s, rfl, hturns, drainedBy_zero hrun⟩
  | succ j ih =>
    rw [List.replicate_succ', List.append_assoc] at hturns
    obtain ⟨u, hu, hcycle, hdrained⟩ := ih hturns
    obtain ⟨t, ht⟩ := cycle_completes { u with turns := more }
    have hstep := (step_of_scheduled_cycle hdrained.running hcycle).trans ht
    exact ⟨t, (run_add 1 hu).trans (run_succ 0 hstep), cycle_keeps_turns ht, (hdrained.withTurns more).after_cycle ht⟩

/-- Settles O41: the k-th cycle finds the queue as the k - 1 cycles before it have left it. -/
theorem queueDrainsFrameByFrame : Obligations.QueueDrainsFrameByFrame := by
  refine ⟨rfl, ?_⟩
  rintro s _ (_ | j) more rfl hrun hpos hturns
  · exact absurd hpos (Nat.lt_irrefl 0)
  rw [List.replicate_succ', List.append_assoc] at hturns
  obtain ⟨u, hu, hcycle, hdrained⟩ := run_cycles j hrun hturns
  obtain ⟨t, ht⟩ := cycle_completes { u with turns := more }
  have hstep := (step_of_scheduled_cycle hdrained.running hcycle).trans ht
  have hlast := hdrained.withTurns more
  exact ⟨t, (run_add 1 hu).trans (run_succ 0 hstep), (hlast.after_cycle ht).rxq, hlast.dispatched_iff ht,
    hlast.frame_bytes ht⟩

/-! ### The bytes accepted and the frames dispatched (R190, R191, R194) -/

theorem accepted_of_push {b : Byte} (hm : moveOf s = .event (.rxPush b)) :
    accepted s = if s.rxq.length < rxqCap s.cfg then [b] else [] := by
  rw [accepted, hm]

theorem accepted_eq_nil (h : ∀ b, moveOf s ≠ .event (.rxPush b)) : accepted s = [] := by
  unfold accepted
  split
  · exact absurd ‹_› (h _)
  · rfl

theorem dispatchedFrame_of_runsCycle (h : runsCycle s) :
    dispatchedFrame s = ((takeFrame s.cfg.literals s.rxq).map Prod.fst).toList := by
  obtain ⟨hrun, hm⟩ := h
  rw [dispatchedFrame, hrun, hm]
  cases takeFrame s.cfg.literals s.rxq <;> rfl

theorem dispatchedFrame_eq_nil (h : ¬ runsCycle s) : dispatchedFrame s = [] := by
  unfold dispatchedFrame
  split
  · exact absurd ⟨‹_›, ‹_›⟩ h
  · rfl

/-- A frame the next step dispatches is cut off the head of the queue. -/
theorem takeFrame_of_mem_dispatchedFrame {f : Frame} (h : f ∈ dispatchedFrame s) :
    ∃ rest, takeFrame s.cfg.literals s.rxq = some (f, rest) := by
  by_cases hc : runsCycle s
  · simpa [dispatchedFrame_of_runsCycle hc] using h
  · simp [dispatchedFrame_eq_nil hc] at h

theorem dispatchedFrame_bytes_length {f : Frame} (h : f ∈ dispatchedFrame s) :
    f.bytes.length = frameLen s.cfg.literals := by
  obtain ⟨rest, hf⟩ := takeFrame_of_mem_dispatchedFrame h
  obtain ⟨-, hmore⟩ := takeFrame_eq_some.1 hf
  exact frame_bytes_length_of hmore

/-- A step that takes no cycle, no push and no realignment leaves RXQ. -/
theorem step_keeps_rxq (h : step s = .next t) (hr : ¬ realigns s) (hc : ¬ runsCycle s)
    (hp : ∀ b, moveOf s ≠ .event (.rxPush b)) : t.rxq = s.rxq := by
  rw [← nextMove_rxq s]
  obtain ⟨-, -, rfl⟩ | ⟨-, -, rfl⟩ | ⟨b, hm, -⟩ | ⟨-, -, rfl⟩ | ⟨hm, -⟩ | ⟨hm, -⟩ | ⟨k, hm, -⟩ |
    ⟨-, -, rfl⟩ | ⟨hm, hrun, -⟩ := step_cases h
  · exact enterMainLoop_rxq _
  · rfl
  · exact absurd hm (hp b)
  · exact tick_rxq _
  · exact absurd (.inr hm) hr
  · exact absurd (.inl (.inl hm)) hr
  · exact absurd (.inl (.inr ⟨k, hm⟩)) hr
  · rfl
  · exact absurd ⟨hrun, hm⟩ hc

/-- Under DROP_NEW a push appends its byte if that is accepted, and nothing if not. -/
theorem step_push_rxq {b : Byte} (hdrop : s.cfg.rxOverflow = .dropNew) (hm : moveOf s = .event (.rxPush b))
    (h : step s = .next t) : t.rxq = s.rxq ++ accepted s := by
  rw [step_of_move hm] at h
  cases h
  rw [accepted_of_push hm]
  split_ifs with hroom
  · rw [rxPush_rxq_of_room b (by simpa using hroom), nextMove_rxq]
  · rw [rxPush_rxq_of_full_dropNew b (by simpa using hroom) (by simpa using hdrop), nextMove_rxq, List.append_nil]

/-- A cycle takes the frame it dispatches off the queue's head, and nothing else. -/
theorem step_cycle_rxq (hc : runsCycle s) (h : step s = .next t) :
    s.rxq = (dispatchedFrame s).flatMap Frame.bytes ++ t.rxq := by
  rw [step_of_runsCycle hc] at h
  rw [dispatchedFrame_of_runsCycle hc, cycle_rxq h]
  cases hq : takeFrame s.cfg.literals s.rxq with
  | none => simp [frameRead_of_none (s := (nextMove s).2) (by simpa using hq)]
  | some p =>
    obtain ⟨f, rest⟩ := p
    obtain ⟨hrxq, -⟩ := takeFrame_eq_some.1 hq
    simpa [frameRead_of_some (s := (nextMove s).2) (by simpa using hq)] using hrxq

/-- Under DROP_NEW a step that does not realign keeps the byte stream: what was queued and what is accepted is what is
dispatched and what stays queued. -/
theorem step_keeps_stream (hdrop : s.cfg.rxOverflow = .dropNew) (hr : ¬ realigns s) (h : step s = .next t) :
    s.rxq ++ accepted s = (dispatchedFrame s).flatMap Frame.bytes ++ t.rxq := by
  by_cases hc : runsCycle s
  · have hm : moveOf s = .cycle := hc.2
    rw [accepted_eq_nil (by simp [hm]), List.append_nil]
    exact step_cycle_rxq hc h
  · rw [dispatchedFrame_eq_nil hc, List.flatMap_nil, List.nil_append]
    by_cases hp : ∃ b, moveOf s = .event (.rxPush b)
    · obtain ⟨b, hm⟩ := hp
      exact (step_push_rxq hdrop hm h).symm
    · have hp := not_exists.1 hp
      rw [accepted_eq_nil hp, List.append_nil, step_keeps_rxq h hr hc hp]

theorem history_succ (n : Nat) (h : step s = .next t) :
    history (n + 1) s = (accepted s ++ (history n t).1, dispatchedFrame s ++ (history n t).2) := by
  rw [history, h]

theorem history_frame_length {n : Nat} {f : Frame} (h : f ∈ (history n s).2) :
    f.bytes.length = frameLen s.cfg.literals := by
  induction n generalizing s with
  | zero => simp [history] at h
  | succ n ih =>
    obtain ⟨u, hu⟩ := step_completes s
    rw [history_succ n hu] at h
    obtain h | h := List.mem_append.1 h
    · exact dispatchedFrame_bytes_length h
    · rw [← parametersConstant s u hu]
      exact ih h

/-- The byte stream is kept along a run that does not realign. -/
theorem run_keeps_stream (n : Nat) (hdrop : s.cfg.rxOverflow = .dropNew) (havoid : Avoids realigns n s)
    (h : core.run n s = .next t) :
    s.rxq ++ (history n s).1 = (history n s).2.flatMap Frame.bytes ++ t.rxq := by
  induction n generalizing s with
  | zero => cases h; simp [history]
  | succ n ih =>
    obtain ⟨u, hu⟩ := step_completes s
    rw [run_succ n hu] at h
    have hfirst := step_keeps_stream hdrop (not_of_avoids havoid) hu
    have hrest := ih (by rwa [parametersConstant s u hu]) (avoids_of_step havoid hu) h
    rw [history_succ n hu, List.flatMap_append, ← List.append_assoc, hfirst, List.append_assoc, hrest, List.append_assoc]

/-- Settles O42: from an empty queue the accepted bytes are the dispatched frames laid end to end, and then the
queue. -/
theorem framesAreCutsOfAcceptedBytes : Obligations.FramesAreCutsOfAcceptedBytes := by
  refine ⟨rfl, fun n s t hdrop hempty havoid hrun => ?_⟩
  have hstream := run_keeps_stream n hdrop havoid hrun
  rw [hempty, List.nil_append] at hstream
  have hlen : ∀ f ∈ (history n s).2, f.bytes.length = frameLen s.cfg.literals := fun f hf => history_frame_length hf
  rw [hstream]
  refine ⟨fun k f hf => (take_drop_flatMap_bytes hlen t.rxq hf).symm, ?_⟩
  rw [drop_flatMap_bytes hlen t.rxq le_rfl, List.drop_length, List.flatMap_nil, List.nil_append]

end Sys2Proof.Safety
end

section
/-! Events and faults (60_exceptions.md R210, R213, R217): no step stops the machine, what a scheduled tick does in
either phase, and a schedule of events taken one by one. -/

namespace Sys2Proof.Safety

open Sys2Proof.Machine

variable {s : State}

/-! ### No fault stops a step (R210) -/

/-- Settles O54: a step makes one move, and every move completes. -/
theorem noStepStops : Obligations.NoStepStops := step_completes

/-! ### A tick (R217, R242) -/

/-- A scheduled tick happens where main-loop entry is not due. -/
theorem step_of_tick {more : List Turn} (hturns : s.turns = .event .tick :: more) (hdue : entryDue s = false) :
    step s = .next (tick { s with turns := more }) := by
  rw [step, advance, nextMove_of_cons hturns (.inl hdue)]
  rfl

/-- Settles O44, by the equation of a tick in each phase. -/
theorem tickCounts : Obligations.TickCounts := by
  intro s more hturns hdue
  refine ⟨_, step_of_tick hturns hdue, tick_time _, fun hrun => ?_, fun hboot => ?_⟩
  · rw [tick_of_run (s := { s with turns := more }) hrun]
  · rw [tick_of_boot (s := { s with turns := more }) hboot]
    rfl

/-! ### Scheduled events, one by one (R198, R213) -/

/-- A push does not look at the schedule. -/
theorem rxPush_withTurns (b : Byte) (s : State) (ts : List Turn) :
    rxPush b { s with turns := ts } = { rxPush b s with turns := ts } := by
  unfold rxPush
  split_ifs
  · rfl
  · cases s.cfg.rxOverflow <;> rfl

/-- In RUN a push, a tick or a transport reset is one update whatever the schedule, keeps the phase and the parameters,
and counts in TIME exactly if it is a tick. -/
theorem happen_withTurns_of_run {e : Event} (he : (∃ b, e = .rxPush b) ∨ e = .tick ∨ e = .rxFlush)
    (hrun : s.phase = .run) (htime : s.time < 2 ^ s.cfg.timeW) :
    ∃ u : State, (∀ ts, happen e { s with turns := ts } = .next { u with turns := ts }) ∧
      u.phase = .run ∧ u.cfg = s.cfg ∧ u.time = (s.time + [e].count .tick) % 2 ^ s.cfg.timeW := by
  obtain ⟨b, rfl⟩ | rfl | rfl := he
  · refine ⟨rxPush b s, fun ts => congrArg _ (rxPush_withTurns b s ts), ?_, rxPush_cfg b s, ?_⟩
    · exact (rxPush_phase b s).trans hrun
    · simp [Nat.mod_eq_of_lt htime]
  · exact ⟨{ s with time := (s.time + 1) % 2 ^ s.cfg.timeW },
      fun ts => congrArg _ (tick_of_run (s := { s with turns := ts }) hrun), hrun, rfl, rfl⟩
  · exact ⟨rxFlush s, fun _ => rfl, hrun, rfl, (Nat.mod_eq_of_lt htime).symm⟩

/-- Settles O60, by induction on the events: each step takes the first of them, and what it makes of the state does not
depend on the rest of the schedule. -/
theorem eventsInAnyOrder : Obligations.EventsInAnyOrder := by
  intro s es more hrun htime hturns hes
  induction es generalizing s with
  | nil =>
    subst hturns
    exact ⟨s, rfl, rfl, rfl, hrun, (Nat.mod_eq_of_lt htime).symm⟩
  | cons e es ih =>
    obtain ⟨he, hes⟩ := List.forall_mem_cons.1 hes
    obtain ⟨u, hhappen, hphase, hcfg, hcount⟩ := happen_withTurns_of_run he hrun htime
    have hstep : step s = .next { u with turns := es.map .event ++ more } :=
      (step_of_run_cons hrun hturns).trans (hhappen _)
    have hbound : u.time < 2 ^ u.cfg.timeW := by
      rw [hcount, hcfg]
      exact Nat.mod_lt _ (Nat.two_pow_pos _)
    obtain ⟨t, hruns, hfold, hmore, hphase', htotal⟩ :=
      ih { u with turns := es.map .event ++ more } hphase hbound rfl hes
    refine ⟨t, (run_succ es.length hstep).trans hruns, ?_, hmore, hphase', ?_⟩
    · rw [List.foldl_cons, andThen, hhappen]
      exact hfold
    · rw [htotal, hcfg, hcount, Nat.mod_add_mod, Nat.add_assoc, ← List.count_append, List.singleton_append]

end Sys2Proof.Safety
end

section
/-! Reset and main-loop entry (70_reset_and_hazards.md R240 to R243): the state a reset makes and the one right after
power-on, what a step from BOOT leaves, and when and how the block leaves BOOT. -/

namespace Sys2Proof.Safety

open Sys2Proof.Machine

variable {s t : State}

/-! ### What a step from BOOT leaves (R242) -/

theorem not_runsCycle_of_boot (hboot : s.phase = .boot) : ¬ runsCycle s := fun ⟨hrun, _⟩ => not_boot_of_run hrun hboot

theorem not_writesStorage_of_boot (hboot : s.phase = .boot) : ¬ writesStorage s :=
  fun ⟨hrun, _⟩ => not_boot_of_run hrun hboot

/-- A step from BOOT that is no reset, main-loop entry among them, leaves what a cycle alone writes: FRAME, LAST_LIVE
and the status bits. -/
theorem step_from_boot_keeps (hboot : s.phase = .boot) (h : step s = .next t) (hr : ¬ resets s) :
    t.frame = s.frame ∧ t.lastLive = s.lastLive ∧ t.dispatched = s.dispatched ∧ t.handled = s.handled ∧
      t.live = s.live := by
  rw [← nextMove_frame s, ← nextMove_lastLive s, ← nextMove_dispatched s, ← nextMove_handled s, ← nextMove_live s]
  obtain ⟨-, -, rfl⟩ | ⟨-, -, rfl⟩ | ⟨b, -, rfl⟩ | ⟨-, -, rfl⟩ | ⟨-, rfl⟩ | ⟨hm, -⟩ | ⟨k, hm, -⟩ |
    ⟨-, -, rfl⟩ | ⟨-, hrun, -⟩ := step_cases h
  · exact ⟨rfl, rfl, rfl, rfl, rfl⟩
  · exact ⟨rfl, rfl, rfl, rfl, rfl⟩
  · obtain ⟨q, d, hpush⟩ := rxPush_state b (nextMove s).2
    rw [hpush]
    exact ⟨rfl, rfl, rfl, rfl, rfl⟩
  · rw [tick_of_boot ((nextMove_phase s).trans hboot)]
    exact ⟨rfl, rfl, rfl, rfl, rfl⟩
  · exact ⟨rfl, rfl, rfl, rfl, rfl⟩
  · exact absurd (.inl hm) hr
  · exact absurd (.inr ⟨k, hm⟩) hr
  · exact ⟨rfl, rfl, rfl, rfl, rfl⟩
  · exact (not_boot_of_run hrun hboot).elim

/-- Settles O49: a step from BOOT runs no cycle and writes no storage. -/
theorem bootRunsNoCycle : Obligations.BootRunsNoCycle := fun _ _ hboot h _ =>
  ⟨dispatchedFrame_eq_nil (not_runsCycle_of_boot hboot),
    (step_storage h).resolve_right fun ⟨hwrites, _⟩ => not_writesStorage_of_boot hboot hwrites,
    step_keeps_tx h (not_runsCycle_of_boot hboot), step_from_boot_keeps hboot h⟩

/-! ### Reset and power-on (R240, R241, R53) -/

/-- Settles O46: a scheduled reset does not wait for main-loop entry, and storage reads alike since NVM is kept. -/
theorem resetSetsState : Obligations.ResetSetsState := fun _ _ hturns =>
  ⟨_, step_of_event hturns rfl, rfl, rfl, rfl, rfl, rfl, rfl, rfl, rfl, memRead_congr rfl rfl, rfl, rfl⟩

/-- A storage byte reads as NVM_INIT of its address while nothing is written (R53). -/
theorem memRead_of_unwritten (hnvm : s.nvm = []) {a : Nat} (ha : a < nvmSize s.cfg) :
    memRead s a = .next (nvmInit s.cfg a) := by
  rw [memRead_of_lt ha, hnvm]
  rfl

/-- Settles O47: power-on has written no storage, and the registers are those of State.reset. -/
theorem powerOnState : Obligations.PowerOnState :=
  ⟨rfl, rfl, rfl, rfl, rfl, rfl, rfl, fun _ => memRead_of_unwritten rfl⟩

/-- Settles O56: the registers are zero, and the clauses about RUN do not speak of BOOT. -/
theorem powerOnInvariant : Obligations.PowerOnInvariant where
  queue := Nat.zero_le _
  time := Nat.two_pow_pos _
  lastLive := Nat.two_pow_pos _
  storage := Memory.wf_nil _
  frameBytes := frame_bytes_length_of rfl
  counts := ⟨levels_length_iff.2 rfl, bits_length_iff.2 rfl⟩
  levels := by decide
  percent := nofun
  load := nofun
  overflow := nofun
  unmapped := nofun
  status := ⟨nofun, nofun⟩
  liveActive := nofun
  bootQuiet := fun _ => ⟨rfl, rfl, rfl, rfl⟩
  bootTime := fun _ => (Nat.zero_mod _).symm
  bootLength := fun _ => Nat.zero_le _

/-! ### Main-loop entry (R243) -/

/-- Since BOOT lasts no longer than BOOT_TICKS, main-loop entry is due exactly when that many ticks are counted. -/
theorem entryDue_iff_of_inv (hboot : s.phase = .boot) (h : Inv s) :
    entryDue s = true ↔ s.bootElapsed = s.cfg.bootTicks := by
  rw [entryDue_iff, and_iff_right hboot]
  exact (h.bootLength hboot).ge_iff_eq

/-- Main-loop entry, where it is due, comes at the schedule's end and before an entry, a cycle or a tick that is
scheduled (log 10). -/
theorem moveOf_eq_enter (hdue : entryDue s = true)
    (h : s.turns = [] ∨ ∃ m more, s.turns = m :: more ∧ (m = .enter ∨ m = .cycle ∨ m = .event .tick)) :
    moveOf s = .enter := by
  obtain hturns | ⟨m, more, hturns, rfl | hm⟩ := h
  · exact (nextMove_of_nil hturns).trans (by simp [ownTurn, phase_boot_of_entryDue hdue, hdue])
  · exact congrArg Prod.fst (nextMove_of_cons hturns (.inr rfl))
  · exact congrArg Prod.fst (nextMove_of_due hturns hdue (afterEntry_iff.2 hm))

/-- The move of main-loop entry enters the main loop where that is due. -/
theorem step_of_enter (hm : moveOf s = .enter) (hdue : entryDue s = true) :
    step s = .next (enterMainLoop (nextMove s).2) := by
  simp [step_of_move hm, takeTurn, hdue]

/-- The move of main-loop entry is void where the entry is not due (log 11). -/
theorem step_of_enter_not_due (hm : moveOf s = .enter) (hdue : entryDue s = false) :
    step s = .next (nextMove s).2 := by
  simp [step_of_move hm, takeTurn, hdue]

/-- The block stays in BOOT unless main-loop entry is due and is the move. -/
theorem step_stays_in_boot (hboot : s.phase = .boot) (h : step s = .next t)
    (hno : entryDue s = false ∨ moveOf s ≠ .enter) : t.phase = .boot := by
  obtain ⟨-, hphase⟩ | ⟨-, hm, -⟩ | ⟨-, hphase⟩ := step_phase_cases h
  · exact hphase
  · have hnext := step_of_enter_not_due hm (hno.resolve_right (not_not_intro hm))
    cases hnext.symm.trans h
    exact (nextMove_phase s).trans hboot
  · exact hphase.trans hboot

/-- Settles O48: under the invariant the entry is due exactly at BOOT_TICKS ticks, which TIME has then counted. -/
theorem mainLoopEntry : Obligations.MainLoopEntry := by
  intro s hboot h
  have hdue := entryDue_iff_of_inv hboot h
  obtain ⟨-, -, -, hlast⟩ := h.bootQuiet hboot
  refine ⟨fun hticks => ⟨moveOf_eq_enter (hdue.2 hticks), fun hm => ⟨?_, ?_, hlast⟩⟩, fun hno t ht => ?_⟩
  · rw [step_of_enter hm (hdue.2 hticks), enterMainLoop]
    simp only [nextMove_cfg]
  · rw [h.bootTime hboot, hticks]
  · exact step_stays_in_boot hboot ht (hno.imp_left fun hne => Bool.eq_false_iff.2 (mt hdue.1 hne))

end Sys2Proof.Safety
end
